-- ==== Sys2Proof/Word.lean ====
section
/-! DEFINITION. The word types of the part: the quantities that the book treats as numbers of a fixed width. -/

namespace Sys2Proof

/-- A word of a port window, 32 bits (Terms and Abbreviations, "Word"). -/
abbrev Word := BitVec 32

/-- A value of the device time base, in microseconds (R91). -/
abbrev Time := BitVec 48

/-- A version of an entry (R4). -/
abbrev Version := BitVec 32

/-- A generation of an entry (R3). -/
abbrev Generation := BitVec 16

/-- A 16-bit quantity: a period, a grace, a countdown, a saturating count, a sequence. -/
abbrev Half := BitVec 16

/-- An 8-bit quantity: a command code, a status code, a merged count, a byte of a cell. -/
abbrev Byte := BitVec 8

/-- A local parameter number, 0 to 4095 (R108). -/
abbrev LocalNo := BitVec 12

/-- A word offset within a port window, 000h to 3FFh (Chapter 10). -/
abbrev Offset := BitVec 10

/-- A host port, P0 to P3. -/
abbrev Port := Fin 4

/-- An aperture number within its port, or an aperture position in a set command (R44). -/
abbrev ApIdx := Fin 8

/-- A grant index within its port (R106). -/
abbrev GrantIdx := Fin 8

/-- A global entry id (R1). -/
abbrev EntryId := Fin 512

/-- A value buffer number (R24). -/
abbrev BufId := Fin 384

/-- A word number within a value buffer or an aperture's data window (R24). -/
abbrev WordIdx := Fin 16

end Sys2Proof
end

