-- ==== Sys2Proof/Config.lean ====
section
/-! DEFINITION. The sizes and reset values that the book fixes for the part (Table 0-2). No value of the book is left open
in a way that needs a free value here: see INVENTORY.md, "What the manual leaves open". -/

namespace Sys2Proof.Config

/-- Records a notification ring holds at most (R130). -/
def ringSize : Nat := 64

/-- The pool low threshold after device reset (R38, R43). -/
def resetThreshold : BufId := 16

/-- Microseconds in a millisecond of the Freshness Monitor (R93). -/
def microsPerMilli : Nat := 1000

/-- The port that the arbiter's rotation counts as last granted after device reset, so that P0 is looked at first (R160). -/
def resetLastGranted : Port := 3

end Sys2Proof.Config
end

