-- ==== Sys2Proof/Syntax.lean ====
section
/-! DEFINITION. What a host can ask in a command word and its parameter words (`Request`), and the commands of the part:
one constructor of `Instr` for each row of spec/opcode_table.json. -/

namespace Sys2Proof

/-- The rights of a grant or of a translation's answer (R106, R108). -/
structure Rights where
  read : Bool
  write : Bool
  deriving DecidableEq, Repr

/-- The entry kinds a subscription names (R121). -/
structure Kinds where
  published : Bool
  stale : Bool
  withdrawn : Bool
  defined : Bool
  deriving DecidableEq, Repr

/-- The command mnemonics of Table 10-2. -/
inductive Cmd where
  | nop | att | det | rtm | ord | ref | owr | pub | cls | ins | pst | sub | mrk | cla | rel
  | define | wdr | sfr | spt | sgr | rgr
  deriving DecidableEq, Repr

/-- A request as the Port Interface latches it at an arrival: the command with the fields that Tables 10-3 and 10-4 give it,
each at its full width (R156, R168, R169). -/
inductive Request where
  | nop | att | det | rtm
  | ord (mask : Byte) (locals : Vector LocalNo 8)
  | ref (mask : Byte)
  | owr (localNo : LocalNo) (ap : ApIdx) (zero : Bool)
  | pub (mask : Byte) (conditional retain : Bool)
  | cls (mask : Byte)
  | ins (localNo : LocalNo)
  | pst
  | sub (localNo : LocalNo) (kinds : Kinds) (coalesce : Bool)
  | mrk
  | cla (wait : Bool)
  | rel
  | define (gid : Half) (length producer : Byte) (period grace : Half)
  | wdr (gid : Half)
  | sfr (gid period grace : Half)
  | spt (threshold : Half)
  | sgr (target index : Byte) (count localBase globalBase : Half) (rights : Rights)
  | rgr (target index : Byte)
  /-- A command word whose code names no command of Table 10-2 (R159). -/
  | bad (code : Byte)
  deriving DecidableEq, Repr

/-- The commands and events of the part, one for each row of spec/opcode_table.json. A row that a block carries out on a
port's behalf names the port; a row that is a host's write carries the word written. -/
inductive Instr where
  /-- R159: the Port Interface takes the pending NOP. -/
  | nop (p : Port)
  /-- R151: the Port Interface takes the pending ATT. -/
  | att (p : Port)
  /-- R152: the Port Interface takes the pending DET. -/
  | det (p : Port)
  /-- R103: the Port Interface takes the pending RTM. -/
  | rtm (p : Port)
  /-- R52: SC takes the pending ORD. -/
  | ord (p : Port)
  /-- R56: SC takes the pending REF. -/
  | ref (p : Port)
  /-- R58: SC takes the pending OWR. -/
  | owr (p : Port)
  /-- R71: SC takes the pending PUB. -/
  | pub (p : Port)
  /-- R61: SC takes the pending CLS. -/
  | cls (p : Port)
  /-- R22: SC takes the pending INS. -/
  | ins (p : Port)
  /-- R41: SC takes the pending PST. -/
  | pst (p : Port)
  /-- R123: NU takes the pending SUB. -/
  | sub (p : Port)
  /-- R135: NU takes the pending MRK. -/
  | mrk (p : Port)
  /-- R139: CU takes the pending CLA. -/
  | cla (p : Port)
  /-- R141: CU takes the pending REL. -/
  | rel (p : Port)
  /-- R14: SC takes the pending DEF. -/
  | define (p : Port)
  /-- R17: SC takes the pending WDR. -/
  | wdr (p : Port)
  /-- R20: SC takes the pending SFR. -/
  | sfr (p : Port)
  /-- R40: SC takes the pending SPT. -/
  | spt (p : Port)
  /-- R118: AC takes the pending SGR. -/
  | sgr (p : Port)
  /-- R119: AC takes the pending RGR. -/
  | rgr (p : Port)
  /-- R159: the Port Interface takes a pending command whose code names no command. -/
  | badCommand (p : Port)
  /-- R158: a host write of the command word while the slot is PENDING. -/
  | commandOverrun (p : Port) (v : Word)
  /-- R64: a host write of data word `w` of aperture `a`. -/
  | dataWordWrite (p : Port) (a : ApIdx) (w : WordIdx) (v : Word)
  /-- R162: a host write of the latch word. -/
  | latchWord (p : Port) (v : Word)
  /-- R163: a host write of the mask word. -/
  | maskWord (p : Port) (v : Word)
  /-- R162: a host write of the force word. -/
  | forceWord (p : Port) (v : Word)
  /-- R133: a host write of the take word. -/
  | take (p : Port) (v : Word)
  /-- R167: a host write of a parameter word, an unused location or a disregarded word. -/
  | windowWrite (p : Port) (offset : Offset) (v : Word)
  /-- R150: the presence input rises. -/
  | presenceAsserted (p : Port)
  /-- R150: the presence input falls. -/
  | presenceDeasserted (p : Port)
  /-- R166: the RESET input. -/
  | deviceReset
  /-- R94: time runs to the next millisecond expiry. -/
  | millisecondExpiry
  /-- R96: SC takes the tick request. -/
  | tick
  /-- R97: the tick in progress expires a CURRENT entry. -/
  | staleTransition
  /-- R98: the tick in progress expires an EMPTY entry. -/
  | emptyExpiry
  /-- R68: SC takes the port's teardown request. -/
  | teardownSc (p : Port)
  /-- R146: CU takes the port's teardown request. -/
  | teardownCu (p : Port)
  /-- R136: NU takes the port's teardown request. -/
  | teardownNu (p : Port)
  /-- R154: the departure step of the port's teardown. -/
  | departure (p : Port)
  /-- R126: NU takes a report of an entry kind. -/
  | entryReport
  /-- R127: NU takes a report of a port or claim kind. -/
  | portReport
  /-- R151: the Port Interface takes another port's peer notice. -/
  | peerNotice (p : Port)
  /-- R143: the Port Interface takes a move of the claim. -/
  | claimMove (p : Port)
  /-- R39: the Port Interface takes a crossing of the pool low threshold. -/
  | crossing (p : Port)
  /-- R132: NU takes a clear of OVERFLOW handed by the Port Interface. -/
  | overflowClear (p : Port)
  /-- R156: a host write of the command word while the slot is READY. -/
  | commandArrival (p : Port) (v : Word)
  /-- R110: AC makes the forward translations of the pending command. -/
  | commandTranslation (p : Port)
  deriving DecidableEq, Repr

end Sys2Proof
end

