-- ==== Sys2Proof/Machine/State.lean ====
section
/-! DEFINITION. The state of the part, block by block, as plain data; the reasons a step can stop; and the state after device
reset. Each field names the rule of spec/ that gives it; INVENTORY.md lists them all with their reset values. -/

namespace Sys2Proof.Machine

/-! ### Stops -/

/-- The faults that stop the machine: none. The spec's own faults (Table 10-10) are effects on a fault record, after which the
part goes on, so this type has no constructor. Safe: no run ends in a fault. -/
inductive Fault where
  deriving DecidableEq, Repr

/-- The refusals. -/
inductive Refusal where
  /-- Raised by an arm of `exec` whose command has no meaning yet; no arm raises it. Safe: the machine stops where the part
  would go on. -/
  | notModelled (mnemonic : String)
  deriving DecidableEq, Repr

/-! ### The catalog (Chapter 1) -/

/-- Who may publish an entry (R5). -/
inductive Producer where
  | port (p : Port)
  | shared
  deriving DecidableEq, Repr

/-- The stage of an entry's life (Section 1.2). -/
inductive EntryState where
  | undefined | empty | current | stale
  deriving DecidableEq, Repr

/-- A catalog entry, the fields of Table 1-1 (R1). -/
structure Entry where
  state : EntryState
  /-- 1 to 16 words; 0 while UNDEFINED. -/
  length : Fin 17
  producer : Option Producer
  generation : Generation
  version : Version
  /-- The current buffer (R2). -/
  current : Option BufId
  publishTime : Option Time
  publisher : Option Port
  period : Half
  grace : Half
  countdown : Half
  staleCount : Half
  deriving DecidableEq, Repr

/-- An UNDEFINED entry that keeps a generation: every other field 0 or absent (R1, R11, R17). -/
def Entry.undefinedWith (g : Generation) : Entry :=
  { state := .undefined, length := 0, producer := none, generation := g, version := 0, current := none,
    publishTime := none, publisher := none, period := 0, grace := 0, countdown := 0, staleCount := 0 }

/-! ### Value buffers (Chapter 2) -/

/-- A buffer's state together with its owner, which follows from the state (R25). -/
inductive BufState where
  | free
  | staged (p : Port) (a : ApIdx)
  | current (e : EntryId)
  | retired
  deriving DecidableEq, Repr

/-- A buffer record (Table 2-1). -/
structure BufRec where
  state : BufState
  /-- Number of READING apertures that pin the buffer (R27). -/
  holds : Nat
  deriving DecidableEq, Repr

/-- The Buffer Memory's cells: strictly rising keys, no entry equal to 0, what an unlisted cell reads as (R24, R43). Byte `i` of
word `w` of buffer `b` has key `64 b + 4 w + i`. -/
abbrev Memory := List Host.Cell

/-! ### Apertures (Chapter 3) -/

/-- What an open aperture recorded at its open (Table 3-1, R44). -/
structure Binding where
  localNo : LocalNo
  entry : EntryId
  generation : Generation
  length : Fin 17
  deriving DecidableEq, Repr

/-- The flags of a READING aperture (Section 3.3). -/
structure ReadFlags where
  updated : Bool
  stale : Bool
  gone : Bool
  deriving DecidableEq, Repr

/-- An aperture record: the fields that Table 3-2 says hold a value in each state, and no others. -/
inductive Aperture where
  | closed
  | reading (bind : Binding) (buf : BufId) (version : Version) (time : Time) (flags : ReadFlags)
  | writing (bind : Binding) (buf : BufId) (base : Version)
  | orphaned (bind : Binding) (buf : BufId) (base : Version)
  deriving DecidableEq, Repr

/-! ### Grants (Chapter 6) -/

/-- A grant of the Access Checker (Table 6-1). -/
structure Grant where
  enabled : Bool
  localBase : Fin 4096
  count : Fin 513
  globalBase : EntryId
  rights : Rights
  deriving DecidableEq, Repr

/-- A disabled grant: count 0, bases 0, no rights (R106). -/
def Grant.disabled : Grant :=
  { enabled := false, localBase := 0, count := 0, globalBase := 0, rights := { read := false, write := false } }

/-- The answer of a forward translation; `none` is NO_GRANT (R108). -/
abbrev Answer := Option (EntryId × Rights)

/-! ### Notification Unit (Chapter 7) -/

/-- A subscription of one port for one entry (R121). -/
structure Subscription where
  kinds : Kinds
  coalesce : Bool
  deriving DecidableEq, Repr

/-- An absent subscription: no kind, coalesce clear (R121). -/
def Subscription.absent : Subscription :=
  { kinds := { published := false, stale := false, withdrawn := false, defined := false }, coalesce := false }

/-- The entry kinds of a report (Table 7-1). -/
inductive EntryKind where
  | published | stale | withdrawn | defined
  deriving DecidableEq, Repr

/-- A report of an entry kind, made by SC (Table 7-1). -/
structure EntryReport where
  kind : EntryKind
  entry : EntryId
  version : Version
  time : Time
  origin : Option Port
  deriving DecidableEq, Repr

/-- A report of a port or claim kind (Table 7-1). -/
inductive PortReport where
  | attached (p : Port) (time : Time)
  | detached (p : Port) (time : Time)
  | claimMoved (holder : Option Port) (time : Time)
  deriving DecidableEq, Repr

/-- What stands in the Notification Unit's input order (R125). -/
inductive NuItem where
  | entry (r : EntryReport)
  | port (r : PortReport)
  | sub (p : Port)
  | mark (p : Port)
  | teardown (p : Port)
  deriving DecidableEq, Repr

/-- The kinds of a ring record (Table 7-2). -/
inductive RecordKind where
  | published | stale | withdrawn | defined | portAttached | portDetached | claimMoved | mark
  deriving DecidableEq, Repr

/-- A ring record (Table 7-2). `viaCoalesce` is the model's own: whether the record was appended for a report routed through a
coalescing subscription (R130); no word of the window shows it. -/
structure Record where
  seq : Half
  kind : RecordKind
  localNo : Option LocalNo
  version : Version
  time : Time
  origin : Option Port
  merged : Byte
  viaCoalesce : Bool
  deriving DecidableEq, Repr

/-- A port's notification ring, oldest record first, with its sequence counter and its lost count (R128, R131). -/
structure Ring where
  records : List Record
  seq : Half
  lost : Half
  deriving DecidableEq, Repr

/-- The ring after device reset and after a teardown (R136, R137). -/
def Ring.cleared : Ring := { records := [], seq := 0, lost := 0 }

/-! ### Port Interface (Chapter 9) -/

/-- The step a teardown stands at (R153, R154): waiting for the command in flight, then for SC, CU and NU, then the departure. -/
inductive TeardownStep where
  | await | store | claim | notify | depart
  deriving DecidableEq, Repr

/-- The session states of Table 9-1. -/
inductive Session where
  | offline | unattached | attached
  | teardown (k : TeardownStep)
  deriving DecidableEq, Repr

/-- Where a pending command stands on its path (Table 9-3): with the Port Interface itself, before the Access Checker's
translation, at SC's arbiter, at the Access Checker as owner, in NU's input order, at the Claim Unit, or a DET whose teardown
is under way. -/
inductive Stage where
  | atPort | translate | store | access | notify | claim | detach
  deriving DecidableEq, Repr

/-- A pending command: the latched request (R156), its place, the local numbers handed to the Access Checker by aperture
position (R70, R110; position 0 for OWR, INS and SUB), and the answers. -/
structure Pending where
  req : Request
  stage : Stage
  locals : Vector (Option LocalNo) 8
  answers : Vector Answer 8
  deriving DecidableEq, Repr

/-- The status codes of Table 10-9. -/
inductive Status where
  | ok | busy | queued | notAttached | badCommand | badParam | noGrant | noRight | undefined | empty
  | notProducer | apertureState | duplicate | noBuffer | conflict | entryGone | revoked | noClaim | claimHeld | alreadyDefined
  deriving DecidableEq, Repr

/-- The fault codes of Table 10-10. -/
inductive FaultCode where
  | commandOverrun | writeToRead | writeInFlight
  deriving DecidableEq, Repr

/-- A port's fault record (R164). -/
structure FaultRecord where
  code : Option FaultCode
  aperture : Option ApIdx
  later : Byte
  deriving DecidableEq, Repr

/-- The empty fault record (R164). -/
def FaultRecord.empty : FaultRecord := { code := none, aperture := none, later := 0 }

/-- A notice handed to a Port Interface: an attach or a departure of another port (R151, R154), or a move of the claim (R143). -/
inductive Notice where
  | peer (p : Port)
  | claimMove
  deriving DecidableEq, Repr

/-- A Port Interface. The slot is READY when `slot` is `none`. -/
structure PortIf where
  session : Session
  /-- The level of the presence input (R150). -/
  presence : Bool
  slot : Option Pending
  /-- The command word as the host last wrote it (R168). -/
  cmdWord : Word
  params : Vector Word 4
  /-- The status of the last completed command (R156). -/
  status : Status
  results : Vector Word 10
  /-- NOTIFY, OVERFLOW, DONE, PEER, CLAIM, POOL_LOW, FAULT in bits 0 to 6 (R161, Table 10-7). -/
  latch : BitVec 7
  mask : BitVec 7
  fault : FaultRecord
  /-- Peer notices and moves of the claim handed to this Port Interface and not yet taken, oldest first (R143, R151, R154, R175). -/
  notices : List Notice
  /-- Pool low crossings handed and not yet taken (R39). -/
  crossings : Nat
  /-- Clears of OVERFLOW handed to the Notification Unit and not yet taken (R132). -/
  overflowClears : Nat
  /-- The model's own: OVERFLOW was set by a discard taken while a clear of OVERFLOW waits, so that clear removes it (R132). -/
  overflowRaised : Bool
  deriving DecidableEq, Repr

/-- The Port Interface after device reset, OFFLINE with its presence input at a level (R166). -/
def PortIf.offline (presence : Bool) : PortIf :=
  { session := .offline, presence := presence, slot := none, cmdWord := 0, params := Vector.replicate 4 0, status := .ok,
    results := Vector.replicate 10 0, latch := 0, mask := 0, fault := FaultRecord.empty, notices := [], crossings := 0,
    overflowClears := 0, overflowRaised := false }

/-! ### The Store Controller's arbiter (Section 9.4) -/

/-- Who requests the store: the Freshness Monitor's tick, or a port's command or teardown (R160). -/
inductive Requester where
  | tick
  | port (p : Port)
  deriving DecidableEq, Repr

/-! ### The whole part -/

/-- The state of the 4410, with the queue of commands and events that are to be taken, first in, first out. -/
structure State where
  /-- SC: the catalog (R1). -/
  catalog : Vector Entry 512
  /-- SC: the buffer records (R25). -/
  buffers : Vector BufRec 384
  /-- SC: the free list, head first (R28). -/
  freeList : List BufId
  /-- SC: the pool low threshold (R38). -/
  threshold : BufId
  /-- SC: the aperture records by port (R44). -/
  apertures : Vector (Vector Aperture 8) 4
  /-- SC's arbiter: the port last granted (R160). -/
  lastGranted : Port
  /-- SC's arbiter: the request that holds the store, granted and not yet taken by SC (R160). -/
  granted : Option Requester
  /-- BM: the words of the buffers (R24). -/
  mem : Memory
  /-- FM: the time base (R91). -/
  timeBase : Time
  /-- FM: the millisecond phase (R93). -/
  phase : Fin 1000
  /-- FM: the owed-tick count (R94). -/
  owed : Half
  /-- FM: whether a tick request waits at the arbiter (R94). -/
  tickWaiting : Bool
  /-- AC: the grants by port (R106). -/
  grants : Vector (Vector Grant 8) 4
  /-- NU: the subscriptions by port and entry (R121). -/
  subs : Vector (Vector Subscription 512) 4
  /-- NU: the rings by port (R128). -/
  rings : Vector Ring 4
  /-- NU: the input order, oldest first (R125). -/
  nuInput : List NuItem
  /-- CU: the holder of the configuration claim (R138). -/
  holder : Option Port
  /-- CU: the wait list, oldest first (R138). -/
  waiters : List Port
  /-- The four Port Interfaces (R149). -/
  ports : Vector PortIf 4
  /-- The queue of commands waiting to be taken, the front first. -/
  pending : List Instr
  deriving DecidableEq, Repr

/-- The state right after device reset with every presence input deasserted (R11, R43, R69, R105, R107, R137, R138, R166; the
level of the presence inputs is DESIGN CHOICE, log entry 5). -/
def State.reset : State :=
  { catalog := Vector.replicate 512 (Entry.undefinedWith 0)
    buffers := Vector.replicate 384 { state := .free, holds := 0 }
    freeList := List.finRange 384
    threshold := Config.resetThreshold
    apertures := Vector.replicate 4 (Vector.replicate 8 .closed)
    lastGranted := Config.resetLastGranted
    granted := none
    mem := []
    timeBase := 0
    phase := 0
    owed := 0
    tickWaiting := false
    grants := Vector.replicate 4 (Vector.replicate 8 Grant.disabled)
    subs := Vector.replicate 4 (Vector.replicate 512 Subscription.absent)
    rings := Vector.replicate 4 Ring.cleared
    nuInput := []
    holder := none
    waiters := []
    ports := Vector.replicate 4 (PortIf.offline false)
    pending := [] }

end Sys2Proof.Machine
end

