-- ==== Sys2Proof/Machine/Flags.lean ====
section
/-! DEFINITION. The event latch, the mask and the interrupt output (R161 to R163, Table 10-7), the saturating counts, and the
fault record (R164, R165). -/

namespace Sys2Proof.Machine

/-- Bits of the latch, mask and force words (Table 10-7). -/
def bitNotify : BitVec 7 := 0b0000001
/-- OVERFLOW, bit 1. -/
def bitOverflow : BitVec 7 := 0b0000010
/-- DONE, bit 2. -/
def bitDone : BitVec 7 := 0b0000100
/-- PEER, bit 3. -/
def bitPeer : BitVec 7 := 0b0001000
/-- CLAIM, bit 4. -/
def bitClaim : BitVec 7 := 0b0010000
/-- POOL_LOW, bit 5. -/
def bitPoolLow : BitVec 7 := 0b0100000
/-- FAULT, bit 6. -/
def bitFault : BitVec 7 := 0b1000000

/-- A count of `n` bits raised by one, staying at its largest value once it has reached it (Conventions, "Numbers"). -/
def saturatingSucc {n : Nat} (x : BitVec n) : BitVec n := if x = BitVec.allOnes n then x else x + 1

/-- Set a latch bit; setting a bit that is already set changes nothing (R161). -/
def PortIf.setLatch (pi : PortIf) (b : BitVec 7) : PortIf := { pi with latch := pi.latch ||| b }

/-- Whether a latch bit is set. -/
def PortIf.hasLatch (pi : PortIf) (b : BitVec 7) : Bool := pi.latch &&& b ≠ 0

/-- The interrupt output: asserted while some bit is set both in the latch and in the mask; deasserted in OFFLINE (R149, R163). -/
def PortIf.interrupt (pi : PortIf) : Bool := pi.session ≠ .offline && pi.latch &&& pi.mask ≠ 0

/-- A discard for a full ring reaches the latch: OVERFLOW is set (R131). A discard that finds a clear of OVERFLOW waiting at the
Notification Unit and the bit clear is marked, since that clear will remove the bit with the count (R132, log entry 6). -/
def PortIf.raiseOverflow (pi : PortIf) : PortIf :=
  { pi.setLatch bitOverflow with
    overflowRaised := pi.overflowRaised || (decide (0 < pi.overflowClears) && !pi.hasLatch bitOverflow) }

/-- A host write to the latch word clears each bit written as 1; clearing FAULT empties the fault record, and clearing OVERFLOW
hands a clear to the Notification Unit (R162). -/
def PortIf.clearLatch (pi : PortIf) (v : BitVec 7) : PortIf :=
  let clearsOverflow := v &&& bitOverflow ≠ 0
  { pi with
    latch := pi.latch &&& ~~~v
    fault := if v &&& bitFault ≠ 0 then FaultRecord.empty else pi.fault
    overflowClears := if clearsOverflow then pi.overflowClears + 1 else pi.overflowClears
    overflowRaised := if clearsOverflow then false else pi.overflowRaised }

/-- A host write to the force word sets each bit written as 1 and has no other effect (R162). A forced OVERFLOW is the host's
own, so no waiting clear removes it. -/
def PortIf.forceLatch (pi : PortIf) (v : BitVec 7) : PortIf :=
  { pi.setLatch v with overflowRaised := pi.overflowRaised && !(v &&& bitOverflow ≠ 0) }

/-- The Notification Unit has taken a clear of OVERFLOW: the bit goes too where a discard ahead of that clear had set it (R132). -/
def PortIf.overflowCleared (pi : PortIf) : PortIf :=
  { pi with
    latch := if pi.overflowRaised then pi.latch &&& ~~~bitOverflow else pi.latch
    overflowClears := pi.overflowClears - 1
    overflowRaised := false }

/-- Record a fault: the first one in an empty record, a later one in the count; FAULT is set in both cases (R165). -/
def PortIf.latchFault (pi : PortIf) (code : FaultCode) (a : Option ApIdx) : PortIf :=
  { pi.setLatch bitFault with
    fault :=
      match pi.fault.code with
      | none => { code := some code, aperture := a, later := 0 }
      | some _ => { pi.fault with later := saturatingSucc pi.fault.later } }

end Sys2Proof.Machine
end

