-- ==== Sys2Proof/Machine/Memory.lean ====
section
/-! DEFINITION. The Buffer Memory: byte cells in one canonical form, the words built from them, and the fill of a buffer
(R24, R30 to R32). -/

namespace Sys2Proof.Machine

/-- The canonical form: keys strictly rising, and no entry equal to what an unlisted cell reads as. -/
abbrev Memory.wf (m : Memory) : Prop := m.Pairwise (fun x y => x.1 < y.1) ∧ ∀ c ∈ m, c.2 ≠ 0

/-- The byte at a key; an unlisted cell reads 0, as device reset leaves every word (R43). -/
def Memory.read (m : Memory) (k : Nat) : Byte :=
  match m with
  | [] => 0
  | c :: t => if c.1 = k then c.2 else Memory.read t k

/-- Store a byte at a key, keeping the canonical form. -/
def Memory.write (m : Memory) (k : Nat) (v : Byte) : Memory :=
  match m with
  | [] => if v = 0 then [] else [(k, v)]
  | c :: t =>
    if k < c.1 then (if v = 0 then c :: t else (k, v) :: c :: t)
    else if k = c.1 then (if v = 0 then t else (k, v) :: t)
    else c :: Memory.write t k v

/-- The key of the least significant byte of word `w` of buffer `b`. -/
def cellKey (b : BufId) (w : WordIdx) : Nat := 64 * b.val + 4 * w.val

/-- Word `w` of buffer `b` (R24). The order of its bytes in the cells is DESIGN CHOICE (log entry 7): no access of the part
moves less than a word. -/
def Memory.readWord (m : Memory) (b : BufId) (w : WordIdx) : Word :=
  m.read (cellKey b w + 3) ++ m.read (cellKey b w + 2) ++ m.read (cellKey b w + 1) ++ m.read (cellKey b w)

/-- Replace word `w` of buffer `b` whole (R24, R64). -/
def Memory.writeWord (m : Memory) (b : BufId) (w : WordIdx) (v : Word) : Memory :=
  (((m.write (cellKey b w) (v.extractLsb' 0 8)).write (cellKey b w + 1) (v.extractLsb' 8 8)).write
    (cellKey b w + 2) (v.extractLsb' 16 8)).write (cellKey b w + 3) (v.extractLsb' 24 8)

/-- Write all 16 words of a buffer, word `w` to `f w` (R30). -/
def Memory.fill (m : Memory) (b : BufId) (f : WordIdx → Word) : Memory :=
  (List.finRange 16).foldl (fun m w => m.writeWord b w (f w)) m

/-- The words of a ZERO fill (R32). -/
def zeroFill : WordIdx → Word := fun _ => 0

/-- The words of a COPY fill from buffer `b` for an entry of `length` words: the words below the length as they stand, the rest
0 (R31). -/
def copyFill (m : Memory) (b : BufId) (length : Fin 17) : WordIdx → Word :=
  fun w => if w.val < length.val then m.readWord b w else 0

end Sys2Proof.Machine
end

