-- ==== Sys2Proof/Decode.lean ====
section
/-! DEFINITION. The words of the port window read as commands: the command codes (Table 10-2), the request in a command word
and its parameter words (Tables 10-3, 10-4), the window map (Table 10-1), an encoder for each, and `decodeTableWord`. -/

namespace Sys2Proof

/-- The four parameter words as they stand, word 1 first. -/
abbrev Params := Vector Word 4

/-! ### Command codes (Table 10-2) -/

/-- The code of a command. -/
def Cmd.code : Cmd → Byte
  | .nop => 0x00 | .att => 0x01 | .det => 0x02 | .rtm => 0x03
  | .ord => 0x10 | .ref => 0x11 | .owr => 0x12 | .pub => 0x13 | .cls => 0x14 | .ins => 0x15 | .pst => 0x16
  | .sub => 0x20 | .mrk => 0x21
  | .cla => 0x30 | .rel => 0x31
  | .define => 0x40 | .wdr => 0x41 | .sfr => 0x42 | .spt => 0x43
  | .sgr => 0x50 | .rgr => 0x51

/-- Every command of Table 10-2. -/
def Cmd.all : List Cmd :=
  [.nop, .att, .det, .rtm, .ord, .ref, .owr, .pub, .cls, .ins, .pst, .sub, .mrk, .cla, .rel,
   .define, .wdr, .sfr, .spt, .sgr, .rgr]

/-- The command that a code names, or none ("Every other code completes BAD_COMMAND"). -/
def Cmd.ofCode (code : Byte) : Option Cmd := Cmd.all.find? fun c => c.code == code

/-- The command a request carries; none for a code that names no command. -/
def Request.cmd : Request → Option Cmd
  | .nop => some .nop | .att => some .att | .det => some .det | .rtm => some .rtm
  | .ord .. => some .ord | .ref .. => some .ref | .owr .. => some .owr | .pub .. => some .pub | .cls .. => some .cls
  | .ins .. => some .ins | .pst => some .pst | .sub .. => some .sub | .mrk => some .mrk | .cla .. => some .cla
  | .rel => some .rel | .define .. => some .define | .wdr .. => some .wdr | .sfr .. => some .sfr | .spt .. => some .spt
  | .sgr .. => some .sgr | .rgr .. => some .rgr | .bad _ => none

/-! ### Fields of the command block (Tables 10-3 and 10-4) -/

/-- Bits `lo + n - 1 : lo` of a word. -/
def Word.field (w : Word) (lo n : Nat) : BitVec n := w.extractLsb' lo n

/-- The command code, bits 7:0 of the command word. -/
def Word.code (w : Word) : Byte := Word.field w 0 8

/-- The aperture mask, bits 15:8 of the command word. -/
def Word.mask (w : Word) : Byte := Word.field w 8 8

/-- The local number in bits 11:0 of a parameter word. -/
def Word.localLow (w : Word) : LocalNo := Word.field w 0 12

/-- The local number in bits 27:16 of a parameter word of ORD. -/
def Word.localHigh (w : Word) : LocalNo := Word.field w 16 12

/-- ORD's local numbers: word 1 holds apertures 0 and 1, and so on to word 4 with 6 and 7. -/
def ordLocals (ps : Params) : Vector LocalNo 8 :=
  #v[Word.localLow ps[0], Word.localHigh ps[0], Word.localLow ps[1], Word.localHigh ps[1],
     Word.localLow ps[2], Word.localHigh ps[2], Word.localLow ps[3], Word.localHigh ps[3]]

/-- SUB's kinds set, bits 16 to 19 of parameter word 1. -/
def subKinds (w : Word) : Kinds :=
  { published := w.getLsbD 16, stale := w.getLsbD 17, withdrawn := w.getLsbD 18, defined := w.getLsbD 19 }

/-- The request in a command word and the parameter words as they stand (R156, R168). Bits outside the positions of the
arriving command do not reach it. -/
def decodeRequest (w : Word) (ps : Params) : Request :=
  match Cmd.ofCode (Word.code w) with
  | none => .bad (Word.code w)
  | some .nop => .nop
  | some .att => .att
  | some .det => .det
  | some .rtm => .rtm
  | some .ord => .ord (Word.mask w) (ordLocals ps)
  | some .ref => .ref (Word.mask w)
  | some .owr => .owr (Word.localLow ps[0]) (Word.field ps[0] 16 3).toFin (ps[0].getLsbD 24)
  | some .pub => .pub (Word.mask w) (w.getLsbD 16) (w.getLsbD 17)
  | some .cls => .cls (Word.mask w)
  | some .ins => .ins (Word.localLow ps[0])
  | some .pst => .pst
  | some .sub => .sub (Word.localLow ps[0]) (subKinds ps[0]) (ps[0].getLsbD 24)
  | some .mrk => .mrk
  | some .cla => .cla (w.getLsbD 18)
  | some .rel => .rel
  | some .define =>
    .define (Word.field ps[0] 0 16) (Word.field ps[0] 16 8) (Word.field ps[0] 24 8)
      (Word.field ps[1] 0 16) (Word.field ps[1] 16 16)
  | some .wdr => .wdr (Word.field ps[0] 0 16)
  | some .sfr => .sfr (Word.field ps[0] 0 16) (Word.field ps[1] 0 16) (Word.field ps[1] 16 16)
  | some .spt => .spt (Word.field ps[0] 0 16)
  | some .sgr =>
    .sgr (Word.field ps[0] 0 8) (Word.field ps[0] 8 8) (Word.field ps[0] 16 16)
      (Word.field ps[1] 0 16) (Word.field ps[1] 16 16)
      { read := ps[2].getLsbD 0, write := ps[2].getLsbD 1 }
  | some .rgr => .rgr (Word.field ps[0] 0 8) (Word.field ps[0] 8 8)

/-! ### The encoder of the command block -/

/-- A bit as a vector of width one. -/
abbrev bit (b : Bool) : BitVec 1 := BitVec.ofBool b

/-- A command word from its fields, unused bits 0 (Table 10-3). -/
def commandWord (code mask : Byte) (conditional retain wait : Bool) : Word :=
  0#13 ++ bit wait ++ bit retain ++ bit conditional ++ mask ++ code

/-- The command word of a request, the bits outside its command's positions 0. -/
def Request.commandWord : Request → Word
  | .bad code => Sys2Proof.commandWord code 0 false false false
  | .ord mask _ => Sys2Proof.commandWord Cmd.ord.code mask false false false
  | .ref mask => Sys2Proof.commandWord Cmd.ref.code mask false false false
  | .cls mask => Sys2Proof.commandWord Cmd.cls.code mask false false false
  | .pub mask c r => Sys2Proof.commandWord Cmd.pub.code mask c r false
  | .cla wait => Sys2Proof.commandWord Cmd.cla.code 0 false false wait
  | r => Sys2Proof.commandWord (r.cmd.elim 0 Cmd.code) 0 false false false

/-- Two local numbers in one parameter word of ORD. -/
def localPair (low high : LocalNo) : Word := 0#4 ++ high ++ 0#4 ++ low

/-- The parameter words of a request, unused bits 0 (Table 10-4). -/
def Request.params : Request → Params
  | .ord _ l => #v[localPair l[0] l[1], localPair l[2] l[3], localPair l[4] l[5], localPair l[6] l[7]]
  | .owr l a z => #v[0#7 ++ bit z ++ 0#5 ++ BitVec.ofNat 3 a ++ 0#4 ++ l, 0, 0, 0]
  | .ins l => #v[0#20 ++ l, 0, 0, 0]
  | .sub l k c =>
    #v[0#7 ++ bit c ++ 0#4 ++ bit k.defined ++ bit k.withdrawn ++ bit k.stale ++ bit k.published ++ 0#4 ++ l, 0, 0, 0]
  | .define gid length producer period grace => #v[producer ++ length ++ gid, grace ++ period, 0, 0]
  | .wdr gid => #v[0#16 ++ gid, 0, 0, 0]
  | .sfr gid period grace => #v[0#16 ++ gid, grace ++ period, 0, 0]
  | .spt threshold => #v[0#16 ++ threshold, 0, 0, 0]
  | .sgr target index count localBase globalBase rights =>
    #v[count ++ index ++ target, globalBase ++ localBase, 0#30 ++ bit rights.write ++ bit rights.read, 0]
  | .rgr target index => #v[0#16 ++ index ++ target, 0, 0, 0]
  | _ => #v[0, 0, 0, 0]

/-! ### The window map (Table 10-1) -/

/-- A word of the port window. -/
inductive WindowWord where
  | command
  | param (i : Fin 4)
  | status
  | result (i : Fin 10)
  | latch
  | mask
  | force
  | session
  | faultRecord
  | head (i : Fin 6)
  | take
  | apStatus (a : ApIdx) (i : Fin 4)
  | apData (a : ApIdx) (w : WordIdx)
  | unused
  deriving DecidableEq, Repr

/-- The word at a window offset; an offset that Table 10-1 does not name is an unused location (R167). -/
def windowWord (offset : Offset) : WindowWord :=
  let n := offset.toNat
  if n = 0x000 then .command
  else if n ≤ 0x004 then .param (Fin.ofNat 4 (n - 0x001))
  else if n = 0x005 then .status
  else if n ≤ 0x00F then .result (Fin.ofNat 10 (n - 0x006))
  else if n = 0x010 then .latch
  else if n = 0x011 then .mask
  else if n = 0x012 then .force
  else if n = 0x013 then .session
  else if n = 0x014 then .faultRecord
  else if n < 0x020 then .unused
  else if n ≤ 0x025 then .head (Fin.ofNat 6 (n - 0x020))
  else if n = 0x026 then .take
  else if n < 0x040 then .unused
  else if n ≤ 0x05F then .apStatus (Fin.ofNat 8 ((n - 0x040) / 4)) (Fin.ofNat 4 (n - 0x040))
  else if n < 0x080 then .unused
  else if n ≤ 0x0FF then .apData (Fin.ofNat 8 ((n - 0x080) / 16)) (Fin.ofNat 16 (n - 0x080))
  else .unused

/-- The offset of a word of the window; none for the unused locations, which have no one offset. -/
def WindowWord.offset : WindowWord → Option Offset
  | .command => some 0x000
  | .param i => some (BitVec.ofNat 10 (0x001 + i))
  | .status => some 0x005
  | .result i => some (BitVec.ofNat 10 (0x006 + i))
  | .latch => some 0x010
  | .mask => some 0x011
  | .force => some 0x012
  | .session => some 0x013
  | .faultRecord => some 0x014
  | .head i => some (BitVec.ofNat 10 (0x020 + i))
  | .take => some 0x026
  | .apStatus a i => some (BitVec.ofNat 10 (0x040 + 4 * a + i))
  | .apData a w => some (BitVec.ofNat 10 (0x080 + 16 * a + w))
  | .unused => none

/-! ### The command table's words -/

/-- No row of spec/opcode_table.json gives bits (its "fields" are empty), so no word spells a row. -/
def decodeTableWord (_nbits _w : Nat) : Option Instr := none

end Sys2Proof
end

