-- ==== Sys2Proof/Machine/Operands.lean ====
section
/-! DEFINITION. How a pending command's operands are read: the members of an aperture mask, the numbers it hands the Access
Checker, the path it takes, and the words in which results go back (Tables 9-3, 10-4, 10-5). -/

namespace Sys2Proof.Machine

/-- Every port, in ascending number. -/
def allPorts : List Port := [0, 1, 2, 3]

/-- The members that an aperture mask names, in ascending aperture number (Table 10-3). -/
def members (mask : Byte) : List ApIdx := (List.finRange 8).filter fun a => mask.getLsbD a

/-- No local number, in every position. -/
def noLocals : Vector (Option LocalNo) 8 := Vector.replicate 8 none

/-- No answer, in every position. -/
def noAnswers : Vector Answer 8 := Vector.replicate 8 none

/-- One local number, handed in position 0. -/
def oneLocal (l : LocalNo) : Vector (Option LocalNo) 8 := noLocals.set 0 (some l)

/-- The local number that an aperture's record holds; a CLOSED one has none (R70). -/
def Aperture.localNo : Aperture → Option LocalNo
  | .closed => none
  | .reading b _ _ _ _ => some b.localNo
  | .writing b _ _ => some b.localNo
  | .orphaned b _ _ => some b.localNo

end Sys2Proof.Machine

namespace Sys2Proof

open Machine

/-- DEF, WDR, SFR, SPT and SGR are the configuration commands (R144). -/
def Request.isConfiguration : Request → Bool
  | .define .. | .wdr .. | .sfr .. | .spt .. | .sgr .. => true
  | _ => false

/-- The first place of a command on its path, after the claim check where there is one (Table 9-3). -/
def Request.firstStage : Request → Stage
  | .nop | .att | .det | .rtm | .bad _ => .atPort
  | .ord .. | .owr .. | .ins .. | .pub .. | .sub .. => .translate
  | .ref .. | .cls .. | .pst | .define .. | .wdr .. | .sfr .. | .spt .. => .store
  | .sgr .. | .rgr .. => .access
  | .mrk => .notify
  | .cla .. | .rel => .claim

/-- The place of a translated command after the Access Checker: the Notification Unit for SUB, SC's arbiter for the others
(R110). -/
def Request.stageAfterTranslation : Request → Stage
  | .sub .. => .notify
  | _ => .store

/-- The apertures whose data words a pending command closes to the host: the members of a PUB or a CLS (R66). -/
def Request.writeInFlight : Request → Byte
  | .pub mask _ _ => mask
  | .cls mask => mask
  | _ => 0

/-- The local numbers that the Port Interface hands to the Access Checker with a command: those of ORD's members, the recorded
ones of PUB's members, and the one of OWR, INS and SUB (R51, R70, R110). -/
def Request.localsFor (aps : Vector Aperture 8) : Request → Vector (Option LocalNo) 8
  | .ord mask l => Vector.ofFn fun a : ApIdx => if mask.getLsbD a then some l[a] else none
  | .pub mask _ _ => Vector.ofFn fun a : ApIdx => if mask.getLsbD a then Aperture.localNo aps[a] else none
  | .owr l _ _ | .ins l | .sub l _ _ => oneLocal l
  | _ => noLocals

end Sys2Proof

namespace Sys2Proof.Machine

/-! ### Result words -/

/-- The ten result words, those not given 0 (R157). -/
abbrev Results := Vector Word 10

/-- Result words all 0. -/
def noResults : Results := Vector.replicate 10 0

/-- Result words 0 upward as listed, every other one 0 (R157). -/
def resultWords (l : List Word) : Results := Vector.ofFn fun i : Fin 10 => l.getD i 0

/-- The results of a set command that fails at member `a`: its number in bits 2:0 of result word 0 (R168). -/
def failedAt (a : ApIdx) : Results := resultWords [BitVec.ofNat 32 a]

/-- Bits 31:0 of a time (Table 10-5). -/
def timeLow (t : Time) : Word := t.extractLsb' 0 32

/-- Bits 47:32 of a time in bits 15:0 (Table 10-5). -/
def timeHigh (t : Time) : Word := 0#16 ++ t.extractLsb' 32 16

/-- A port, or FFh where it is absent or NONE (R170). -/
def portCode : Option Port → Byte
  | none => 0xFF
  | some p => BitVec.ofNat 8 p

/-- A producer: 0 to 3 a port, 4 SHARED, FFh absent (R169, R170). -/
def producerCode : Option Producer → Byte
  | none => 0xFF
  | some (.port p) => BitVec.ofNat 8 p
  | some .shared => 4

/-- The producer a DEF names, or none for a value that is refused (R13, R169). -/
def producerOf (b : Byte) : Option Producer :=
  if b = 0 then some (.port 0) else if b = 1 then some (.port 1) else if b = 2 then some (.port 2)
  else if b = 3 then some (.port 3) else if b = 4 then some .shared else none

/-- A buffer number, or FFFFh where it is absent (R170). -/
def bufferCode : Option BufId → Half
  | none => 0xFFFF
  | some b => BitVec.ofNat 16 b

/-- An entry state (Table 10-5). -/
def EntryState.code : EntryState → Byte
  | .undefined => 0 | .empty => 1 | .current => 2 | .stale => 3

/-- A status code (Table 10-9). -/
def Status.code : Status → Byte
  | .ok => 0x00 | .busy => 0x01 | .queued => 0x02 | .notAttached => 0x03 | .badCommand => 0x04 | .badParam => 0x05
  | .noGrant => 0x06 | .noRight => 0x07 | .undefined => 0x08 | .empty => 0x09 | .notProducer => 0x0A
  | .apertureState => 0x0B | .duplicate => 0x0C | .noBuffer => 0x0D | .conflict => 0x0E | .entryGone => 0x0F
  | .revoked => 0x10 | .noClaim => 0x11 | .claimHeld => 0x12 | .alreadyDefined => 0x13

/-- A global id field that names an entry, or none for 512 and above (R169). -/
def entryOf (gid : Half) : Option EntryId := if h : gid.toNat < 512 then some ⟨gid.toNat, h⟩ else none

/-- A target port field that names a port (R117, R169). -/
def portOf (b : Byte) : Option Port := if h : b.toNat < 4 then some ⟨b.toNat, h⟩ else none

/-- A grant index field that names a grant (R117, R169). -/
def grantIdxOf (b : Byte) : Option GrantIdx := if h : b.toNat < 8 then some ⟨b.toNat, h⟩ else none

/-- A length field that DEF accepts, 1 to 16 (R13). -/
def lengthOf (b : Byte) : Option (Fin 17) := if h : 1 ≤ b.toNat ∧ b.toNat < 17 then some ⟨b.toNat, h.2⟩ else none

/-- A threshold field that SPT accepts, 0 to 383 (R40). -/
def thresholdOf (t : Half) : Option BufId := if h : t.toNat < 384 then some ⟨t.toNat, h⟩ else none

end Sys2Proof.Machine
end

