-- ==== Sys2Proof/Machine/Ops.lean ====
section
/-! DEFINITION. The operations that the commands share: reading and replacing one record, the pool's operations (Chapter 2), the
arbiter and the end of a store event (R38, R160), the completion of a command (R153, R157), and the hand-over of reports and
notices between the blocks. -/

namespace Sys2Proof.Machine

/-! ### One record read or replaced -/

/-- The catalog entry of an id (R1). -/
def State.entry (s : State) (e : EntryId) : Entry := s.catalog[e]

/-- The record of a buffer (R25). -/
def State.buffer (s : State) (b : BufId) : BufRec := s.buffers[b]

/-- Aperture `a` of port `p` (R44). -/
def State.aperture (s : State) (p : Port) (a : ApIdx) : Aperture := s.apertures[p][a]

/-- Grant `i` of port `p` (R106). -/
def State.grant (s : State) (p : Port) (i : GrantIdx) : Grant := s.grants[p][i]

/-- The subscription of port `p` for entry `e` (R121). -/
def State.subscription (s : State) (p : Port) (e : EntryId) : Subscription := s.subs[p][e]

/-- The ring of port `p` (R128). -/
def State.ring (s : State) (p : Port) : Ring := s.rings[p]

/-- The Port Interface of port `p` (R149). -/
def State.port (s : State) (p : Port) : PortIf := s.ports[p]

/-- Replace one catalog entry. -/
def State.setEntry (s : State) (e : EntryId) (x : Entry) : State := { s with catalog := s.catalog.set e x }

/-- Replace one buffer record. -/
def State.setBuffer (s : State) (b : BufId) (x : BufRec) : State := { s with buffers := s.buffers.set b x }

/-- Replace one aperture record. -/
def State.setAperture (s : State) (p : Port) (a : ApIdx) (x : Aperture) : State :=
  { s with apertures := s.apertures.set p (s.apertures[p].set a x) }

/-- Replace one grant. -/
def State.setGrant (s : State) (p : Port) (i : GrantIdx) (x : Grant) : State :=
  { s with grants := s.grants.set p (s.grants[p].set i x) }

/-- Replace one subscription. -/
def State.setSubscription (s : State) (p : Port) (e : EntryId) (x : Subscription) : State :=
  { s with subs := s.subs.set p (s.subs[p].set e x) }

/-- Replace one ring. -/
def State.setRing (s : State) (p : Port) (x : Ring) : State := { s with rings := s.rings.set p x }

/-- Replace one Port Interface. -/
def State.setPort (s : State) (p : Port) (x : PortIf) : State := { s with ports := s.ports.set p x }

/-- Change one Port Interface. -/
def State.updatePort (s : State) (p : Port) (f : PortIf → PortIf) : State := s.setPort p (f (s.port p))

/-- Change every aperture record of every port. -/
def State.mapApertures (s : State) (f : Aperture → Aperture) : State :=
  { s with apertures := s.apertures.map fun aps => aps.map f }

/-- Change every Port Interface, given its port. -/
def State.mapPorts (s : State) (f : Port → PortIf → PortIf) : State :=
  { s with ports := Vector.ofFn fun q : Port => f q (s.port q) }

/-! ### The pool (Chapter 2) -/

/-- A buffer becomes FREE and joins the tail of the free list (R28). -/
def State.returnBuffer (s : State) (b : BufId) : State :=
  { s.setBuffer b { state := .free, holds := 0 } with freeList := s.freeList ++ [b] }

/-- A buffer leaves its entry: RETIRED if held, FREE at the tail of the free list if not (R34). -/
def State.retireBuffer (s : State) (b : BufId) : State :=
  if 0 < (s.buffer b).holds then s.setBuffer b { s.buffer b with state := .retired } else s.returnBuffer b

/-- A reader's pin is placed (R27, R53). -/
def State.pin (s : State) (b : BufId) : State := s.setBuffer b { s.buffer b with holds := (s.buffer b).holds + 1 }

/-- A reader's pin is released; a RETIRED buffer whose hold count falls to 0 becomes FREE (R36). -/
def State.releasePin (s : State) (b : BufId) : State :=
  let r := s.buffer b
  if r.state = .retired ∧ r.holds - 1 = 0 then s.returnBuffer b else s.setBuffer b { r with holds := r.holds - 1 }

/-- The head of the free list becomes STAGED for aperture `a` of port `p` and all its words are filled (R30). An empty free list
allocates nothing; the commands that allocate check for that first (R28). -/
def State.allocate (s : State) (p : Port) (a : ApIdx) (f : WordIdx → Word) : Option (BufId × State) :=
  match s.freeList with
  | [] => none
  | b :: rest =>
    some (b, { s.setBuffer b { state := .staged p a, holds := 0 } with freeList := rest, mem := s.mem.fill b f })

/-- Close one aperture, releasing its pin or returning its staged buffer (R61, R62). -/
def State.closeAperture (s : State) (p : Port) (a : ApIdx) : State :=
  match s.aperture p a with
  | .closed => s
  | .reading _ b _ _ _ => (s.releasePin b).setAperture p a .closed
  | .writing _ b _ => (s.returnBuffer b).setAperture p a .closed
  | .orphaned _ b _ => (s.returnBuffer b).setAperture p a .closed

/-- Close a list of one port's apertures in the order of the list (R29, R61). -/
def State.closeAll (s : State) (p : Port) (l : List ApIdx) : State := l.foldl (fun s a => s.closeAperture p a) s

/-! ### Readers and writers bound to an entry (R44) -/

/-- An aperture is bound to an entry when its entry id is the entry's id and its generation the entry's generation (R44). -/
def Binding.boundTo (b : Binding) (e : EntryId) (g : Generation) : Bool := b.entry = e && b.generation = g

/-- The UPDATED flag of a publication: on every reader bound to the entry; a GONE reader is bound to no live entry (R47, R77). -/
def Aperture.markUpdated (e : EntryId) (g : Generation) : Aperture → Aperture
  | .reading b buf v t f =>
    if b.boundTo e g && !f.gone then .reading b buf v t { f with updated := true } else .reading b buf v t f
  | x => x

/-- The STALE flag of an expiry: on every reader that pins the entry's current buffer (R48, R97). -/
def Aperture.markStale (cur : Option BufId) : Aperture → Aperture
  | .reading b buf v t f => if cur = some buf then .reading b buf v t { f with stale := true } else .reading b buf v t f
  | x => x

/-- A withdrawal: GONE on every reader bound to the entry, and every writer bound to it orphaned (R18, R49). -/
def Aperture.withdraw (e : EntryId) (g : Generation) : Aperture → Aperture
  | .reading b buf v t f => if b.boundTo e g then .reading b buf v t { f with gone := true } else .reading b buf v t f
  | .writing b buf v => if b.boundTo e g then .orphaned b buf v else .writing b buf v
  | x => x

/-! ### Reports and notices -/

/-- Hand an item to the Notification Unit's input order (R125). -/
def State.toNotify (s : State) (i : NuItem) : State := { s with nuInput := s.nuInput ++ [i] }

/-- SC makes a report of an entry kind (Table 7-1). -/
def State.reportEntry (s : State) (k : EntryKind) (e : EntryId) (v : Version) (t : Time) (origin : Option Port) : State :=
  s.toNotify (.entry { kind := k, entry := e, version := v, time := t, origin := origin })

/-- Hand a notice to a Port Interface, behind those that it has not yet taken (R175, log entry 17). -/
def PortIf.handNotice (pi : PortIf) (n : Notice) : PortIf := { pi with notices := pi.notices ++ [n] }

/-- Hand a peer notice about port `p` to each of the other three Port Interfaces (R151, R154). -/
def State.handPeerNotice (s : State) (p : Port) : State :=
  s.mapPorts fun q pi => if q = p then pi else pi.handNotice (.peer p)

/-- The claim has a new holder, or NONE: one CLAIM_MOVED report, and the move handed to all four Port Interfaces (R143). -/
def State.moveClaim (s : State) (h : Option Port) (waiters : List Port) : State :=
  ({ s with holder := h, waiters := waiters }.toNotify (.port (.claimMoved h s.timeBase))).mapPorts
    fun _ pi => pi.handNotice .claimMove

/-- Hand a crossing of the pool low threshold to the four Port Interfaces (R39). -/
def State.handCrossing (s : State) : State := s.mapPorts fun _ pi => { pi with crossings := pi.crossings + 1 }

/-! ### SC's arbiter (R160) -/

/-- Whether a Port Interface has a request waiting at the arbiter: a command whose place is there, or its teardown request. -/
def PortIf.waitsForStore (pi : PortIf) : Bool :=
  pi.session = .teardown .store || (match pi.slot with | some c => c.stage = .store | none => false)

/-- The waiting port request that comes first in rotating order after the port last granted. -/
def State.nextInRotation (s : State) : Option Port :=
  [s.lastGranted + 1, s.lastGranted + 2, s.lastGranted + 3, s.lastGranted].find? fun q => (s.port q).waitsForStore

/-- The arbiter grants the store, if it is not in use, to a waiting tick request, or else to the waiting port request that comes
first in the rotation. It looks at each arrival of a request, so one that finds the store idle and no other waiting is granted at
its arrival, and at each end of a store event (R160). -/
def State.arbitrate (s : State) : State :=
  if s.granted ≠ none then s
  else if s.tickWaiting then { s with granted := some .tick }
  else match s.nextInRotation with
    | some p => { s with granted := some (.port p), lastGranted := p }
    | none => s

/-- The command of port `p` that SC takes now: the one to which the store is granted. -/
def State.storeCommand (s : State) (p : Port) : Option Pending :=
  if s.granted = some (.port p) then (s.port p).slot.filter fun c => c.stage = .store else none

/-- The command of port `p` that stands at a place other than SC's arbiter. -/
def State.commandAt (s : State) (p : Port) (k : Stage) : Option Pending := (s.port p).slot.filter fun c => c.stage = k

/-- The end of a port's store event that began in `before`: the store is free again, and the fall of the free count is judged
once over the whole event against the threshold it began with (R38). The next grant follows with what the request's completion
brings (`arbitrate`). -/
def State.endStoreEvent (before after : State) : State :=
  let s := { after with granted := none }
  if before.threshold.val ≤ before.freeList.length ∧ after.freeList.length < before.threshold.val then s.handCrossing else s

/-! ### Completion (R153, R156, R157) -/

/-- The Port Interface completes a command: status, results, slot READY, DONE set, in one event (R157). -/
def PortIf.complete (pi : PortIf) (st : Status) (rw : Results) : PortIf :=
  { pi.setLatch bitDone with slot := none, status := st, results := rw }

/-- The completion that step 1 of teardown discards: NOT_ATTACHED and results 0, slot READY, DONE not set, and the teardown goes
on to SC (R153). -/
def PortIf.discardCompletion (pi : PortIf) : PortIf :=
  { pi with slot := none, status := .notAttached, results := noResults, session := .teardown .store }

/-- The completion of a pending command by its owning block, discarded when step 1 of a teardown awaits it; the teardown's request
then arrives at the arbiter (R153). The arbiter looks at its requests (R160). -/
def State.complete (s : State) (p : Port) (st : Status) (rw : Results) : State :=
  (s.updatePort p fun pi => if pi.session = .teardown .await then pi.discardCompletion else pi.complete st rw).arbitrate

/-- What an owning block answers: the state it leaves, the status and the results. -/
abbrev Answered := State × Status × Results

/-- A refusal that changes nothing (R52, R58, R71, R75). -/
def State.refuse (s : State) (st : Status) (rw : Results := noResults) : Answered := (s, st, rw)

/-- SC has carried out the command of port `p`: its store event ends and the Port Interface completes the command. -/
def State.finishStore (before : State) (p : Port) (r : Answered) : State :=
  (before.endStoreEvent r.1).complete p r.2.1 r.2.2

/-- The first member, in the order given, that fails a check, with its status code (R52, R55, R71). -/
def firstFailure (check : ApIdx → Option Status) : List ApIdx → Option (ApIdx × Status)
  | [] => none
  | a :: rest =>
    match check a with
    | some st => some (a, st)
    | none => firstFailure check rest

end Sys2Proof.Machine
end

