-- ==== Sys2Proof/Machine/Apertures.lean ====
section
/-! DEFINITION. The aperture commands ORD, REF, OWR and CLS (Sections 3.4 to 3.7). -/

namespace Sys2Proof.Machine

/-! ### ORD -/

/-- The checks of ORD on one member (R52). -/
def State.ordCheck (s : State) (p : Port) (ans : Vector Answer 8) (a : ApIdx) : Option Status :=
  if s.aperture p a ≠ .closed then some .apertureState
  else match ans[a] with
    | none => some .noGrant
    | some (e, r) =>
      if !r.read then some .noRight
      else match (s.entry e).state with
        | .undefined => some .undefined
        | .empty => some .empty
        | .current => none
        | .stale => none

/-- Pin an entry's current buffer in an aperture (R53, R56): the hold, the pinned version and time, and the flags as R50 gives
them. An entry without a current buffer pins nothing; the checks refuse it before (R2). -/
def State.pinEntry (s : State) (p : Port) (a : ApIdx) (bind : Binding) (x : Entry) : State :=
  match x.current with
  | none => s
  | some b =>
    (s.pin b).setAperture p a
      (.reading bind b x.version (x.publishTime.getD 0) { updated := false, stale := decide (x.state = .stale), gone := false })

/-- Open one member of an ORD on the entry its answer names (R53). -/
def State.ordMember (s : State) (p : Port) (locals : Vector LocalNo 8) (ans : Vector Answer 8) (a : ApIdx) : State :=
  match ans[a] with
  | none => s
  | some (e, _) =>
    let x := s.entry e
    s.pinEntry p a { localNo := locals[a], entry := e, generation := x.generation, length := x.length } x

/-- ORD: the whole set checked, then opened, at one store event (R52, R53). -/
def State.openRead (s : State) (p : Port) (mask : Byte) (locals : Vector LocalNo 8) (ans : Vector Answer 8) : Answered :=
  match firstFailure (s.ordCheck p ans) (members mask) with
  | some (a, st) => s.refuse st (failedAt a)
  | none => ((members mask).foldl (fun s a => s.ordMember p locals ans a) s, .ok, noResults)

/-! ### REF -/

/-- The checks of REF on one member (R55). -/
def State.refCheck (s : State) (p : Port) (a : ApIdx) : Option Status :=
  match s.aperture p a with
  | .reading b _ _ _ f =>
    let x := s.entry b.entry
    if f.gone ∨ x.state = .undefined ∨ x.generation ≠ b.generation then some .entryGone
    else if x.state = .empty then some .empty
    else none
  | _ => some .apertureState

/-- Move one reader to its entry's current buffer, its flags recomputed (R50, R56). -/
def State.refMember (s : State) (p : Port) (a : ApIdx) : State :=
  match s.aperture p a with
  | .reading b buf v t _ =>
    let x := s.entry b.entry
    if x.current = some buf then
      s.setAperture p a
        (.reading b buf v t { updated := false, stale := decide (x.state = .stale), gone := false })
    else (s.releasePin buf).pinEntry p a b x
  | _ => s

/-- REF: the whole set checked, then refreshed, at one store event (R55, R56). -/
def State.refresh (s : State) (p : Port) (mask : Byte) : Answered :=
  match firstFailure (s.refCheck p) (members mask) with
  | some (a, st) => s.refuse st (failedAt a)
  | none => ((members mask).foldl (fun s a => s.refMember p a) s, .ok, noResults)

/-! ### OWR -/

/-- Whether an aperture is a writer, WRITING or ORPHANED, with entry id `e` (R58). -/
def Aperture.writesTo (e : EntryId) : Aperture → Bool
  | .writing b _ _ => b.entry = e
  | .orphaned b _ _ => b.entry = e
  | _ => false

/-- Whether the entry's producer admits the port (R5, R58). -/
def Entry.admits (x : Entry) (p : Port) : Bool := x.producer = some (.port p) || x.producer = some .shared

/-- The checks of OWR in their order, the last one, for a free buffer, apart (R58). -/
def State.owrCheck (s : State) (p : Port) (a : ApIdx) (ans : Answer) : Option Status :=
  if s.aperture p a ≠ .closed then some .apertureState
  else match ans with
    | none => some .noGrant
    | some (e, r) =>
      if !r.write then some .noRight
      else if (s.entry e).state = .undefined then some .undefined
      else if !(s.entry e).admits p then some .notProducer
      else if (s.apertures[p]).any (Aperture.writesTo e) then some .duplicate
      else if s.freeList = [] then some .noBuffer
      else none

/-- The words that a fill writes for an entry: ZERO, or COPY from its current buffer; a COPY for an EMPTY entry writes zeros
(R31, R32). -/
def State.fillFor (s : State) (zero : Bool) (x : Entry) : WordIdx → Word :=
  if zero then zeroFill
  else match x.current with
    | some b => copyFill s.mem b x.length
    | none => zeroFill

/-- OWR: the checks, then the aperture opened on a newly allocated and filled buffer (R58, R59). -/
def State.openWrite (s : State) (p : Port) (l : LocalNo) (a : ApIdx) (zero : Bool) (ans : Answer) : Answered :=
  match s.owrCheck p a ans, ans with
  | some st, _ => s.refuse st
  | none, none => s.refuse .noGrant
  | none, some (e, _) =>
    let x := s.entry e
    match s.allocate p a (s.fillFor zero x) with
    | none => s.refuse .noBuffer
    | some (b, s') =>
      (s'.setAperture p a
        (.writing { localNo := l, entry := e, generation := x.generation, length := x.length } b x.version), .ok, noResults)

/-! ### The commands -/

/-- SC takes the ORD of port `p`. -/
def execOrd (p : Port) (s : State) : Host.Outcome State Fault Refusal :=
  match s.storeCommand p with
  | some { req := .ord mask locals, answers := ans, .. } => .next (s.finishStore p (s.openRead p mask locals ans))
  | _ => .next s

/-- SC takes the REF of port `p`. -/
def execRef (p : Port) (s : State) : Host.Outcome State Fault Refusal :=
  match s.storeCommand p with
  | some { req := .ref mask, .. } => .next (s.finishStore p (s.refresh p mask))
  | _ => .next s

/-- SC takes the OWR of port `p`. -/
def execOwr (p : Port) (s : State) : Host.Outcome State Fault Refusal :=
  match s.storeCommand p with
  | some { req := .owr l a zero, answers := ans, .. } => .next (s.finishStore p (s.openWrite p l a zero ans[0]))
  | _ => .next s

/-- SC takes the CLS of port `p`: every member is closed in ascending aperture number, whatever its state (R61). -/
def execCls (p : Port) (s : State) : Host.Outcome State Fault Refusal :=
  match s.storeCommand p with
  | some { req := .cls mask, .. } => .next (s.finishStore p (s.closeAll p (members mask), .ok, noResults))
  | _ => .next s

end Sys2Proof.Machine
end

