-- ==== Sys2Proof/Machine/Catalog.lean ====
section
/-! DEFINITION. The catalog's commands: DEF, WDR, SFR and INS (Chapter 1). -/

namespace Sys2Proof.Machine

/-- The countdown that DEF loads, and SFR on an EMPTY entry (Table 1-5). -/
def firstCountdown (period grace : Half) : Half := if period = 0 then 0 else if grace = 0 then period else grace

/-- DEF: the checks of R13, then an UNDEFINED entry becomes EMPTY with the next generation and a DEFINED report (R14). -/
def State.defineEntry (s : State) (gid : Half) (length producer : Byte) (period grace : Half) : Answered :=
  match entryOf gid, lengthOf length, producerOf producer with
  | some e, some l, some q =>
    let x := s.entry e
    if x.state ≠ .undefined then s.refuse .alreadyDefined
    else
      let g := x.generation + 1
      let x' : Entry :=
        { state := .empty, length := l, producer := some q, generation := g, version := 0, current := none,
          publishTime := none, publisher := none, period := period, grace := grace,
          countdown := firstCountdown period grace, staleCount := 0 }
      ((s.setEntry e x').reportEntry .defined e 0 s.timeBase none, .ok, resultWords [0#16 ++ g])
  | _, _, _ => s.refuse .badParam

/-- WDR: the report first (R17), then the current buffer, the readers and the writers in the order of R18, and the entry becomes
UNDEFINED keeping its generation. -/
def State.withdrawEntry (s : State) (gid : Half) : Answered :=
  match entryOf gid with
  | none => s.refuse .badParam
  | some e =>
    let x := s.entry e
    if x.state = .undefined then s.refuse .undefined
    else
      let s1 := s.reportEntry .withdrawn e x.version s.timeBase none
      let s2 := s1.setEntry e (Entry.undefinedWith x.generation)
      let s3 := match x.current with
        | some b => s2.retireBuffer b
        | none => s2
      (s3.mapApertures (Aperture.withdraw e x.generation), .ok, noResults)

/-- The countdown after an SFR, by the entry's state (R20, Table 1-5). -/
def sfrCountdown (st : EntryState) (period grace : Half) : Half :=
  match st with
  | .undefined => 0
  | .empty => firstCountdown period grace
  | .current => period
  | .stale => 0

/-- SFR: the period and grace replaced and the countdown set by the entry's state (R20). -/
def State.setFreshness (s : State) (gid period grace : Half) : Answered :=
  match entryOf gid with
  | none => s.refuse .badParam
  | some e =>
    let x := s.entry e
    if x.state = .undefined then s.refuse .undefined
    else
      (s.setEntry e { x with period := period, grace := grace, countdown := sfrCountdown x.state period grace }, .ok, noResults)

/-- The results of INS (Table 10-5), absent fields as R170 gives them. SHARED reads 4, as in DEF's field (log entry 11). -/
def Entry.results (x : Entry) (e : EntryId) : Results :=
  let t := x.publishTime.getD 0
  resultWords
    [BitVec.ofNat 8 x.length ++ x.state.code ++ BitVec.ofNat 16 e,
     portCode x.publisher ++ producerCode x.producer ++ x.generation,
     x.version,
     x.staleCount ++ bufferCode x.current,
     timeLow t, timeHigh t,
     x.grace ++ x.period,
     0#16 ++ x.countdown]

/-- INS: the answer of the translation, then every field of the entry as it stands (R22). -/
def State.inspect (s : State) (ans : Answer) : Answered :=
  match ans with
  | none => s.refuse .noGrant
  | some (e, r) => if !r.read then s.refuse .noRight else (s, .ok, (s.entry e).results e)

/-- SC takes the DEF of port `p`. -/
def execDefine (p : Port) (s : State) : Host.Outcome State Fault Refusal :=
  match s.storeCommand p with
  | some { req := .define gid length producer period grace, .. } =>
    .next (s.finishStore p (s.defineEntry gid length producer period grace))
  | _ => .next s

/-- SC takes the WDR of port `p`. -/
def execWdr (p : Port) (s : State) : Host.Outcome State Fault Refusal :=
  match s.storeCommand p with
  | some { req := .wdr gid, .. } => .next (s.finishStore p (s.withdrawEntry gid))
  | _ => .next s

/-- SC takes the SFR of port `p`. -/
def execSfr (p : Port) (s : State) : Host.Outcome State Fault Refusal :=
  match s.storeCommand p with
  | some { req := .sfr gid period grace, .. } => .next (s.finishStore p (s.setFreshness gid period grace))
  | _ => .next s

/-- SC takes the INS of port `p`. -/
def execIns (p : Port) (s : State) : Host.Outcome State Fault Refusal :=
  match s.storeCommand p with
  | some { req := .ins _, answers := ans, .. } => .next (s.finishStore p (s.inspect ans[0]))
  | _ => .next s

end Sys2Proof.Machine
end

