-- ==== Sys2Proof/Machine/Freshness.lean ====
section
/-! DEFINITION. The Freshness Monitor and the tick (Chapter 5): time, MILLISECOND_EXPIRY, TICK, STALE_TRANSITION, EMPTY_EXPIRY. -/

namespace Sys2Proof.Machine

/-! ### Time -/

/-- A millisecond expiry: the owed count rises, saturating, and a tick request is raised if none waits, which the arbiter grants at
once where the store is not in use (R94, R160). -/
def State.expireMillisecond (s : State) : State :=
  State.arbitrate { s with owed := saturatingSucc s.owed, tickWaiting := true }

/-- One microsecond passes: the time base and the phase advance; where the phase would reach 1,000 it returns to 0 and a
millisecond expires (R91, R93). It is the step on an empty queue (log entry 2). -/
def State.microsecond (s : State) : State :=
  let s' := { s with timeBase := s.timeBase + 1, phase := s.phase + 1 }
  if s.phase = 999 then s'.expireMillisecond else s'

/-- Time runs to the next millisecond expiry (R93, R94; log entry 2). -/
def execMillisecondExpiry (s : State) : Host.Outcome State Fault Refusal :=
  .next { s with timeBase := s.timeBase + BitVec.ofNat 48 (1000 - s.phase.val), phase := 0 }.expireMillisecond

/-! ### The tick -/

/-- Whether a countdown of the entry runs: EMPTY or CURRENT with a countdown above 0 (R96). -/
def Entry.runs (x : Entry) : Bool := (x.state = .empty || x.state = .current) && x.countdown ≠ 0

/-- Whether a tick of `n` brings the entry's running countdown to 0 (R96). -/
def Entry.expiresAt (n : Half) (x : Entry) : Bool := x.runs && decide (x.countdown ≤ n)

/-- An entry after its visit by a tick of `n`: its running countdown lowered by the smaller of `n` and itself, and the expiry of
a countdown that reaches 0, which makes a CURRENT entry STALE and raises the stale count (R96, R97, R98). -/
def Entry.visited (n : Half) (x : Entry) : Entry :=
  if x.expiresAt n then
    { x with
      state := if x.state = .current then .stale else x.state
      countdown := 0
      staleCount := saturatingSucc x.staleCount }
  else if x.runs then { x with countdown := x.countdown - n }
  else x

/-- The expiry of entry `e`, found as `x` by the visit, but for its own fields: the readers that pin a CURRENT entry's current
buffer are flagged STALE, and the STALE report is made, with version 0 for an EMPTY entry (R97, R98). -/
def State.announceExpiry (s : State) (e : EntryId) (x : Entry) : State :=
  if x.state = .current then
    (s.mapApertures (Aperture.markStale x.current)).reportEntry .stale e x.version s.timeBase none
  else s.reportEntry .stale e 0 s.timeBase none

/-- SC's visit of entry `e` at a tick of `n`, the expiry of a countdown that reaches 0 carried out at once (R96). -/
def State.visitEntry (n : Half) (s : State) (e : EntryId) : State :=
  let x := s.entry e
  let s' := s.setEntry e (x.visited n)
  if x.expiresAt n then s'.announceExpiry e x else s'

/-- The entries whose countdowns run, in ascending id; a tick passes over every other one (R96). -/
def State.running (s : State) : List EntryId := (List.finRange 512).filter fun e => (s.entry e).runs

/-- The tick's store event: the whole owed count taken as `n` and the count back to 0, then the entries visited in ascending id,
and the store free again (R95, R96). -/
def State.takeTick (s : State) : State :=
  (s.running.foldl (State.visitEntry s.owed) { s with owed := 0, tickWaiting := false, granted := none }).arbitrate

/-- Whether the tick request is granted (R160). -/
def State.tickGranted (s : State) : Bool := s.granted = some .tick

/-- Whether the tick, were it taken now, would expire some entry of state `k` (R96). -/
def State.tickExpires (s : State) (k : EntryState) : Bool :=
  (List.finRange 512).any fun e => (s.entry e).expiresAt s.owed && (s.entry e).state = k

/-- SC takes the granted tick request (R95, R96). -/
def execTick (s : State) : Host.Outcome State Fault Refusal := if s.tickGranted then .next s.takeTick else .next s

/-- The tick's store event, where it makes some CURRENT entry STALE (R97). R96 has the expiry carried out at once in that event,
so the row is the event itself (DESIGN CHOICE, log entry 3). -/
def execStaleTransition (s : State) : Host.Outcome State Fault Refusal :=
  if s.tickGranted && s.tickExpires .current then .next s.takeTick else .next s

/-- The tick's store event, where it expires some EMPTY entry (R98). R96 has the expiry carried out at once in that event, so the
row is the event itself (DESIGN CHOICE, log entry 3). -/
def execEmptyExpiry (s : State) : Host.Outcome State Fault Refusal :=
  if s.tickGranted && s.tickExpires .empty then .next s.takeTick else .next s

end Sys2Proof.Machine
end

