-- ==== Sys2Proof/Machine/Access.lean ====
section
/-! DEFINITION. The Access Checker (Chapter 6): forward and reverse translation, COMMAND_TRANSLATION, SGR and RGR. -/

namespace Sys2Proof.Machine

/-! ### Translation -/

/-- An enabled grant covers the local numbers of its run (R106). -/
def Grant.coversLocal (g : Grant) (l : LocalNo) : Bool :=
  g.enabled && decide (g.localBase.val ≤ l.toNat) && decide (l.toNat < g.localBase.val + g.count.val)

/-- The global id onto which a grant maps a local number of its run (R106). -/
def Grant.toGlobal (g : Grant) (l : LocalNo) : EntryId := Fin.ofNat 512 (g.globalBase.val + (l.toNat - g.localBase.val))

/-- An enabled grant covers the global ids of its run (R106). -/
def Grant.coversGlobal (g : Grant) (e : EntryId) : Bool :=
  g.enabled && decide (g.globalBase.val ≤ e.val) && decide (e.val < g.globalBase.val + g.count.val)

/-- The local number to which a grant maps a global id of its run back (R106). -/
def Grant.toLocal (g : Grant) (e : EntryId) : LocalNo := BitVec.ofNat 12 (g.localBase.val + (e.val - g.globalBase.val))

/-- Forward translation: the lowest-indexed enabled grant that covers the number, and its rights alone (R108). -/
def translate (gs : Vector Grant 8) (l : LocalNo) : Answer :=
  (gs.toList.find? fun g => g.coversLocal l).map fun g => (g.toGlobal l, g.rights)

/-- Reverse translation: the lowest-indexed enabled grant with READ right that covers the id (R111). -/
def reverseTranslate (gs : Vector Grant 8) (e : EntryId) : Option LocalNo :=
  (gs.toList.find? fun g => g.rights.read && g.coversGlobal e).map fun g => g.toLocal e

/-- The Access Checker makes all the forward translations of the pending command of port `p` at one event and hands them to the
owning block with the command (R110). Without a command that waits for its translation, nothing happens. -/
def execCommandTranslation (p : Port) (s : State) : Host.Outcome State Fault Refusal :=
  match s.commandAt p .translate with
  | some c =>
    let k := Request.stageAfterTranslation c.req
    let answers := c.locals.map fun l => l.bind (translate s.grants[p])
    let s' := s.updatePort p fun pi => { pi with slot := some { c with stage := k, answers := answers } }
    .next (if k = .notify then s'.toNotify (.sub p) else s').arbitrate
  | none => .next s

/-! ### SGR and RGR -/

/-- The grant an SGR asks for, or none where its parameters are refused (R117, R118). -/
def grantAsked (count localBase globalBase : Half) (rights : Rights) : Option Grant :=
  if count = 0 then some Grant.disabled
  else if h : count.toNat < 513 ∧ localBase.toNat < 4096 ∧ globalBase.toNat < 512 then
    if localBase.toNat + count.toNat ≤ 4096 ∧ globalBase.toNat + count.toNat ≤ 512 ∧ (rights.read || rights.write) then
      some { enabled := true, localBase := ⟨localBase.toNat, h.2.1⟩, count := ⟨count.toNat, h.1⟩,
             globalBase := ⟨globalBase.toNat, h.2.2⟩, rights := rights }
    else none
  else none

/-- SGR: the parameters checked, and the target grant replaced whole (R117, R118). -/
def State.replaceGrant (s : State) (target index : Byte) (count localBase globalBase : Half) (rights : Rights) : Answered :=
  match portOf target, grantIdxOf index, grantAsked count localBase globalBase rights with
  | some q, some i, some g => (s.setGrant q i g, .ok, noResults)
  | _, _, _ => s.refuse .badParam

/-- The results of RGR (Table 10-5). -/
def Grant.results (g : Grant) : Results :=
  resultWords
    [0#22 ++ bit g.rights.write ++ bit g.rights.read ++ 0#7 ++ bit g.enabled,
     BitVec.ofNat 16 g.count ++ BitVec.ofNat 16 g.localBase,
     0#16 ++ BitVec.ofNat 16 g.globalBase]

/-- RGR: one grant returned whole (R119). -/
def State.readGrant (s : State) (target index : Byte) : Answered :=
  match portOf target, grantIdxOf index with
  | some q, some i => (s, .ok, (s.grant q i).results)
  | _, _ => s.refuse .badParam

/-- The Access Checker takes the SGR of port `p`. -/
def execSgr (p : Port) (s : State) : Host.Outcome State Fault Refusal :=
  match s.commandAt p .access with
  | some { req := .sgr target index count localBase globalBase rights, .. } =>
    let r := s.replaceGrant target index count localBase globalBase rights
    .next (r.1.complete p r.2.1 r.2.2)
  | _ => .next s

/-- The Access Checker takes the RGR of port `p`. -/
def execRgr (p : Port) (s : State) : Host.Outcome State Fault Refusal :=
  match s.commandAt p .access with
  | some { req := .rgr target index, .. } =>
    let r := s.readGrant target index
    .next (r.1.complete p r.2.1 r.2.2)
  | _ => .next s

end Sys2Proof.Machine
end

