-- ==== Sys2Proof/Machine/Notification.lean ====
section
/-! DEFINITION. The Notification Unit: SUB, MRK, the routing of reports, the rings, and clears of OVERFLOW (Chapter 7). -/

namespace Sys2Proof.Machine

/-! ### Rings -/

/-- The record kind of an entry kind (Table 7-2). -/
def EntryKind.recordKind : EntryKind → RecordKind
  | .published => .published | .stale => .stale | .withdrawn => .withdrawn | .defined => .defined

/-- Whether a kinds set names a kind (R121). -/
def Kinds.names (ks : Kinds) : EntryKind → Bool
  | .published => ks.published | .stale => ks.stale | .withdrawn => ks.withdrawn | .defined => ks.defined

/-- Whether a kinds set names no kind (R121). -/
def Kinds.isEmpty (ks : Kinds) : Bool := !(ks.published || ks.stale || ks.withdrawn || ks.defined)

/-- Whether a ring has room for one more record (R130, R131). -/
def Ring.hasRoom (r : Ring) : Bool := decide (r.records.length < Config.ringSize)

/-- A record appended with the counter's value as its sequence, and the counter raised by one (R128). -/
def Ring.push (r : Ring) (x : Record) : Ring := { r with records := r.records ++ [{ x with seq := r.seq }], seq := r.seq + 1 }

/-- Append a record to a port's ring and set NOTIFY (R128); a record for a full ring is discarded, the lost count rises and
OVERFLOW is set (R131). -/
def State.appendRecord (s : State) (p : Port) (x : Record) : State :=
  let r := s.ring p
  if r.hasRoom then (s.setRing p (r.push x)).updatePort p (·.setLatch bitNotify)
  else (s.setRing p { r with lost := saturatingSucc r.lost }).updatePort p PortIf.raiseOverflow

/-- Whether a record is a PUBLISHED one of a local number: every record in a ring is unread (R129). -/
def Record.coalescesWith (x : Record) (l : LocalNo) : Bool := x.kind = .published && x.localNo = some l

/-- A record with a report folded into it: version, time and origin from the report, the merged count up by one (R129). -/
def Record.fold (x : Record) (r : EntryReport) : Record :=
  { x with version := r.version, time := r.time, origin := r.origin, merged := saturatingSucc x.merged }

/-- Fold a report into the youngest PUBLISHED record of a local number, if the ring holds one (R129). -/
def coalesceInto (l : LocalNo) (r : EntryReport) : List Record → Option (List Record)
  | [] => none
  | x :: xs =>
    match coalesceInto l r xs with
    | some ys => some (x :: ys)
    | none => if x.coalescesWith l then some (x.fold r :: xs) else none

/-- The record made from a report of an entry kind under a local number (R128). -/
def EntryReport.record (r : EntryReport) (l : LocalNo) (viaCoalesce : Bool) : Record :=
  { seq := 0, kind := r.kind.recordKind, localNo := some l, version := r.version, time := r.time, origin := r.origin,
    merged := 1, viaCoalesce := viaCoalesce }

/-- Deliver a report to a port under a local number: folded into an unread record where the subscription coalesces and there is
one, appended otherwise (R128, R129). -/
def State.deliver (s : State) (p : Port) (r : EntryReport) (l : LocalNo) : State :=
  let coalesces := r.kind = .published && (s.subscription p r.entry).coalesce
  match (if coalesces then coalesceInto l r (s.ring p).records else none) with
  | some records => (s.setRing p { s.ring p with records := records }).updatePort p (·.setLatch bitNotify)
  | none => s.appendRecord p (r.record l coalesces)

/-! ### Routing -/

/-- Whether a port is a candidate for a report: ATTACHED, with a subscription for the id that names the kind (R126). -/
def State.isCandidate (s : State) (r : EntryReport) (p : Port) : Bool :=
  (s.port p).session = .attached && Kinds.names (s.subscription p r.entry).kinds r.kind

/-- Route a report of an entry kind to one port: nothing where the port is no candidate or has no local number (R112, R126). -/
def State.routeEntry (s : State) (r : EntryReport) (p : Port) : State :=
  if s.isCandidate r p then
    match reverseTranslate s.grants[p] r.entry with
    | some l => s.deliver p r l
    | none => s
  else s

/-- The port that a report is about and that therefore does not receive it (R127). -/
def PortReport.notFor : PortReport → Option Port
  | .attached p _ => some p
  | .detached p _ => some p
  | .claimMoved _ _ => none

/-- The record made from a report of a port or claim kind (Table 7-1, R128). -/
def PortReport.record : PortReport → Record
  | .attached p t =>
    { seq := 0, kind := .portAttached, localNo := none, version := 0, time := t, origin := some p, merged := 1, viaCoalesce := false }
  | .detached p t =>
    { seq := 0, kind := .portDetached, localNo := none, version := 0, time := t, origin := some p, merged := 1, viaCoalesce := false }
  | .claimMoved h t =>
    { seq := 0, kind := .claimMoved, localNo := none, version := 0, time := t, origin := h, merged := 1, viaCoalesce := false }

/-- Route a report of a port or claim kind to one port (R127). -/
def State.routePort (s : State) (r : PortReport) (p : Port) : State :=
  if (s.port p).session = .attached ∧ r.notFor ≠ some p then s.appendRecord p r.record else s

/-- The Notification Unit takes the report of an entry kind at the head of its input order (R125, R126). -/
def execEntryReport (s : State) : Host.Outcome State Fault Refusal :=
  match s.nuInput with
  | .entry r :: rest => .next (allPorts.foldl (fun s p => s.routeEntry r p) { s with nuInput := rest })
  | _ => .next s

/-- The Notification Unit takes the report of a port or claim kind at the head of its input order (R125, R127). -/
def execPortReport (s : State) : Host.Outcome State Fault Refusal :=
  match s.nuInput with
  | .port r :: rest => .next (allPorts.foldl (fun s p => s.routePort r p) { s with nuInput := rest })
  | _ => .next s

/-! ### SUB, MRK and clears -/

/-- SUB: the answer of the translation, then the subscription replaced whole (R122, R123). -/
def State.subscribe (s : State) (p : Port) (kinds : Kinds) (coalesce : Bool) (ans : Answer) : Answered :=
  match ans with
  | none => s.refuse .noGrant
  | some (e, r) =>
    if !r.read then s.refuse .noRight
    else
      let x : Subscription := if Kinds.isEmpty kinds then Subscription.absent else { kinds := kinds, coalesce := coalesce }
      (s.setSubscription p e x, .ok, resultWords [BitVec.ofNat 32 e])

/-- The pending command of port `p` in the Notification Unit's input order. -/
def State.notifyCommand (s : State) (p : Port) : Option Pending := s.commandAt p .notify

/-- The Notification Unit takes the SUB of port `p`, when it stands at the head of the input order (R122, R125). -/
def execSub (p : Port) (s : State) : Host.Outcome State Fault Refusal :=
  match s.nuInput, s.notifyCommand p with
  | .sub q :: rest, some { req := .sub _ kinds coalesce, answers := ans, .. } =>
    if q = p then
      let r := { s with nuInput := rest }.subscribe p kinds coalesce ans[0]
      .next (r.1.complete p r.2.1 r.2.2)
    else .next s
  | _, _ => .next s

/-- The MARK record of a port at a time (Table 7-1, R135). -/
def markRecord (p : Port) (t : Time) : Record :=
  { seq := 0, kind := .mark, localNo := none, version := 0, time := t, origin := some p, merged := 1, viaCoalesce := false }

/-- The results of MRK: whether the MARK was appended, and its sequence, 0 when it was discarded (R135, Table 10-5). -/
def Ring.markResults (r : Ring) : Results :=
  if r.hasRoom then resultWords [r.seq ++ 0#15 ++ 1#1] else noResults

/-- The Notification Unit takes the MRK of port `p`, when it stands at the head of the input order (R125, R135). -/
def execMrk (p : Port) (s : State) : Host.Outcome State Fault Refusal :=
  match s.nuInput, s.notifyCommand p with
  | .mark q :: rest, some { req := .mrk, .. } =>
    if q = p then
      .next (({ s with nuInput := rest }.appendRecord p (markRecord p s.timeBase)).complete p .ok (s.ring p).markResults)
    else .next s
  | _, _ => .next s

/-- The Notification Unit takes a clear of OVERFLOW of port `p`: the lost count becomes 0, and the OVERFLOW bit goes with it where
a discard taken ahead of the clear had set it (R132). -/
def execOverflowClear (p : Port) (s : State) : Host.Outcome State Fault Refusal :=
  if (s.port p).overflowClears = 0 then .next s
  else .next ((s.setRing p { s.ring p with lost := 0 }).updatePort p PortIf.overflowCleared)

end Sys2Proof.Machine
end

