-- ==== Sys2Proof/Machine/Pool.lean ====
section
/-! DEFINITION. The pool commands SPT and PST (Sections 2.9 and 2.10). -/

namespace Sys2Proof.Machine

/-- The number of buffers whose state satisfies a test. -/
def State.countBuffers (s : State) (f : BufState → Bool) : Nat := s.buffers.toList.countP fun r => f r.state

/-- Whether a state is STAGED. -/
def BufState.isStaged : BufState → Bool
  | .staged _ _ => true
  | _ => false

/-- Whether a state is CURRENT. -/
def BufState.isCurrent : BufState → Bool
  | .current _ => true
  | _ => false

/-- SPT: a threshold of 0 to 383 replaces the old one (R40). -/
def State.setThreshold (s : State) (t : Half) : Answered :=
  match thresholdOf t with
  | none => s.refuse .badParam
  | some b => ({ s with threshold := b }, .ok, noResults)

/-- The six results of PST (R41, Table 10-5). The free count is the length of the free list (R28). -/
def State.poolResults (s : State) : Results :=
  resultWords
    [BitVec.ofNat 32 s.freeList.length, BitVec.ofNat 32 (s.countBuffers BufState.isStaged),
     BitVec.ofNat 32 (s.countBuffers BufState.isCurrent), BitVec.ofNat 32 (s.countBuffers (· == .retired)),
     BitVec.ofNat 32 s.threshold, 0#16 ++ bufferCode s.freeList.head?]

/-- SC takes the SPT of port `p`. -/
def execSpt (p : Port) (s : State) : Host.Outcome State Fault Refusal :=
  match s.storeCommand p with
  | some { req := .spt t, .. } => .next (s.finishStore p (s.setThreshold t))
  | _ => .next s

/-- SC takes the PST of port `p`. -/
def execPst (p : Port) (s : State) : Host.Outcome State Fault Refusal :=
  match s.storeCommand p with
  | some { req := .pst, .. } => .next (s.finishStore p (s, .ok, s.poolResults))
  | _ => .next s

end Sys2Proof.Machine
end

