-- ==== Sys2Proof/Machine/Claim.lean ====
section
/-! DEFINITION. The Claim Unit: CLA and REL (Chapter 8). -/

namespace Sys2Proof.Machine

/-- A port's place in the wait list, counted from 1, or 0 when it is not waiting (R139). -/
def State.waitPlace (s : State) (p : Port) : Nat := if p ∈ s.waiters then s.waiters.idxOf p + 1 else 0

/-- The results of CLA: the holder, and the issuing port's place (R139, Table 10-5). -/
def State.claimResults (s : State) (p : Port) : Results :=
  resultWords [0#16 ++ BitVec.ofNat 8 (s.waitPlace p) ++ portCode s.holder]

/-- The result of REL: the holder (R141, R142, Table 10-5). -/
def State.holderResult (s : State) : Results := resultWords [0#24 ++ portCode s.holder]

/-- The claim leaves its holder for the oldest waiter, or for NONE (R141). -/
def State.passClaim (s : State) : State :=
  match s.waiters with
  | [] => s.moveClaim none []
  | q :: rest => s.moveClaim (some q) rest

/-- CLA: the state it leaves and the status, by the port's relation to the claim (R139, Table 8-2). -/
def State.claim (s : State) (p : Port) (wait : Bool) : State × Status :=
  if s.holder = none then (s.moveClaim (some p) s.waiters, .ok)
  else if s.holder = some p then (s, .ok)
  else if !wait then (s, .claimHeld)
  else if p ∈ s.waiters then (s, .queued)
  else ({ s with waiters := s.waiters ++ [p] }, .queued)

/-- REL: the state it leaves and the status, by the port's relation to the claim (R141, R142, Table 8-2). -/
def State.release (s : State) (p : Port) : State × Status :=
  if s.holder = some p then (s.passClaim, .ok)
  else if p ∈ s.waiters then ({ s with waiters := s.waiters.erase p }, .ok)
  else (s, .noClaim)

/-- The Claim Unit takes the CLA of port `p`. -/
def execCla (p : Port) (s : State) : Host.Outcome State Fault Refusal :=
  match s.commandAt p .claim with
  | some { req := .cla wait, .. } =>
    let r := s.claim p wait
    .next (r.1.complete p r.2 (r.1.claimResults p))
  | _ => .next s

/-- The Claim Unit takes the REL of port `p`. -/
def execRel (p : Port) (s : State) : Host.Outcome State Fault Refusal :=
  match s.commandAt p .claim with
  | some { req := .rel, .. } =>
    let r := s.release p
    .next (r.1.complete p r.2 r.1.holderResult)
  | _ => .next s

end Sys2Proof.Machine
end

