-- ==== Sys2Proof/Machine/Window.lean ====
section
/-! DEFINITION. The port window (Chapter 10): what a host read of each word returns, what a host write of each word does, the
arrival of a command, and the rows that are host writes. -/

namespace Sys2Proof.Machine

/-! ### Host reads -/

/-- The session code of the session word (R173, R174). -/
def Session.code : Session → BitVec 2
  | .offline => 0 | .unattached => 1 | .attached => 2 | .teardown _ => 3

/-- The fault code of the fault record word (Table 10-10); 0 for none. -/
def FaultCode.code : Option FaultCode → Byte
  | none => 0 | some .commandOverrun => 1 | some .writeToRead => 2 | some .writeInFlight => 3

/-- The fault record word (R173). -/
def FaultRecord.word (f : FaultRecord) : Word :=
  0#8 ++ f.later ++ (match f.aperture with | none => 0xFF#8 | some a => BitVec.ofNat 8 a) ++ FaultCode.code f.code

/-- The session word of a port (R149, R173). -/
def State.sessionWord (s : State) (p : Port) : Word :=
  0#6 ++ BitVec.ofNat 2 p ++ 0#6 ++ BitVec.ofNat 2 (s.waitPlace p) ++ 0#7 ++ bit (s.holder = some p) ++ 0#6
    ++ (s.port p).session.code

/-- The kind code of a ring record (Table 10-8). -/
def RecordKind.code : RecordKind → Byte
  | .published => 1 | .stale => 2 | .withdrawn => 3 | .defined => 4 | .portAttached => 5 | .portDetached => 6
  | .claimMoved => 7 | .mark => 8

/-- The ring head words (R133, R172, Table 10-8). An empty ring reads 0 in words 0 to 4. -/
def Ring.headWord (r : Ring) (i : Fin 6) : Word :=
  match i.val, r.records.head? with
  | 5, _ => 0#16 ++ r.lost
  | _, none => 0
  | 0, some x => x.merged ++ x.kind.code ++ x.seq
  | 1, some x => BitVec.ofNat 8 r.records.length ++ portCode x.origin ++ 0#4 ++ x.localNo.getD 0
  | 2, some x => x.version
  | 3, some x => timeLow x.time
  | _, some x => timeHigh x.time

/-- The fields of status word 0 of an open aperture (Table 10-6). -/
def apStatus0 (state : BitVec 2) (f : ReadFlags) (length : Fin 17) (t : Time) : Word :=
  t.extractLsb' 32 16 ++ 0#3 ++ BitVec.ofNat 5 length ++ 0#1 ++ bit f.gone ++ bit f.stale ++ bit f.updated ++ 0#2 ++ state

/-- Status word 1 of an open aperture (Table 10-6). -/
def apStatus1 (b : Binding) (buf : BufId) : Word := 0#2 ++ BitVec.ofNat 9 buf ++ BitVec.ofNat 9 b.entry ++ b.localNo

/-- No flag of a reader set. -/
def ReadFlags.clear : ReadFlags := { updated := false, stale := false, gone := false }

/-- The four status words of an open aperture from its fields (Table 10-6). -/
def apStatusOpen (state : BitVec 2) (b : Binding) (buf : BufId) (v : Version) (t : Time) (f : ReadFlags) (i : Fin 4) : Word :=
  match i.val with
  | 0 => apStatus0 state f b.length t
  | 1 => apStatus1 b buf
  | 2 => v
  | _ => timeLow t

/-- The aperture status words: all 0 for a CLOSED aperture, pinned time 0 for a writer (R46, R171). -/
def Aperture.statusWord (x : Aperture) (i : Fin 4) : Word :=
  match x with
  | .closed => 0
  | .reading b buf v t f => apStatusOpen 1 b buf v t f i
  | .writing b buf v => apStatusOpen 2 b buf v 0 ReadFlags.clear i
  | .orphaned b buf v => apStatusOpen 3 b buf v 0 ReadFlags.clear i

/-- A host read of data word `w` of an aperture (R63, Table 3-4). -/
def State.dataWord (s : State) (x : Aperture) (w : WordIdx) : Word :=
  match x with
  | .closed => 0
  | .reading b buf _ _ _ => if w.val < b.length.val then s.mem.readWord buf w else 0
  | .writing b buf _ => if w.val < b.length.val then s.mem.readWord buf w else 0
  | .orphaned b buf _ => if w.val < b.length.val then s.mem.readWord buf w else 0

/-- The status word: BUSY while the slot is PENDING, else the status of the last completed command (R156, R168). -/
def PortIf.statusWord (pi : PortIf) : Word := 0#24 ++ (if pi.slot.isSome then Status.busy else pi.status).code

/-- A host read of a window word in a session other than OFFLINE (Table 10-1). -/
def State.readWindowWord (s : State) (p : Port) (x : WindowWord) : Word :=
  let pi := s.port p
  match x with
  | .command => pi.cmdWord
  | .param i => pi.params[i]
  | .status => pi.statusWord
  | .result i => pi.results[i]
  | .latch => 0#25 ++ pi.latch
  | .mask => 0#25 ++ pi.mask
  | .force => 0
  | .session => s.sessionWord p
  | .faultRecord => pi.fault.word
  | .head i => (s.ring p).headWord i
  | .take => 0
  | .apStatus a i => (s.aperture p a).statusWord i
  | .apData a w => s.dataWord (s.aperture p a) w
  | .unused => 0

/-- A host read of a window offset; every word reads 0 in OFFLINE (R149, R167, R174). A read changes no state. -/
def State.hostRead (s : State) (p : Port) (offset : Offset) : Word :=
  if (s.port p).session = .offline then 0 else s.readWindowWord p (windowWord offset)

/-- The interrupt output of a port (R163). -/
def State.interrupt (s : State) (p : Port) : Bool := (s.port p).interrupt

/-! ### The arrival of a command -/

/-- A command refused at its arrival: completed at once, DONE set, the slot READY (R144, R156). -/
def State.completeNow (s : State) (p : Port) (st : Status) : State := s.updatePort p fun pi => pi.complete st noResults

/-- A command takes the slot of its port, PENDING at the first place of its path; an MRK joins the Notification Unit's input
order, and a command whose path goes straight to SC arrives at the arbiter (R135, R156, R157, R160). -/
def State.takeSlot (s : State) (p : Port) (req : Request) : State :=
  let c : Pending :=
    { req := req, stage := Request.firstStage req, locals := Request.localsFor s.apertures[p] req, answers := noAnswers }
  let s' := s.updatePort p fun pi => { pi with slot := some c }
  (if req = .mrk then s'.toNotify (.mark p) else s').arbitrate

/-- An ATT that takes the slot in UNATTACHED: notices handed before it did not fall together with the attach, so the port has
discarded them while UNATTACHED (R39, R143, R151, log entry 12). A clear of OVERFLOW on its way to the Notification Unit is no
notice and stays on its way (DESIGN CHOICE, log entry 18). -/
def PortIf.dropNotices (pi : PortIf) : PortIf := { pi with notices := [], crossings := 0 }

/-- The Port Interface acts on an arrival by its session, and makes the claim check for a configuration command (R144, R156). -/
def State.arrive (s : State) (p : Port) (req : Request) : State :=
  match (s.port p).session with
  | .offline => s
  | .unattached => if req = .att then (s.updatePort p PortIf.dropNotices).takeSlot p req else s.completeNow p .notAttached
  | .teardown _ => s.completeNow p .notAttached
  | .attached =>
    if Request.isConfiguration req && !(s.holder = some p) then s.completeNow p .noClaim else s.takeSlot p req

/-- A host write of the command word: discarded in OFFLINE, else kept for read-back and then an arrival or an overrun as the slot
is READY or PENDING (R149, R156, R158, R168). -/
def State.writeCommand (s : State) (p : Port) (v : Word) : State :=
  let pi := s.port p
  if pi.session = .offline then s
  else
    let s' := s.setPort p { pi with cmdWord := v }
    match pi.slot with
    | some _ => s'.updatePort p (·.latchFault .commandOverrun none)
    | none => s'.arrive p (decodeRequest v pi.params)

/-! ### The other host writes -/

/-- Whether a pending PUB or CLS of the port names the aperture (R66). -/
def PortIf.inFlight (pi : PortIf) (a : ApIdx) : Bool :=
  match pi.slot with
  | some c => (Request.writeInFlight c.req).getLsbD a
  | none => false

/-- A host write of data word `w` of aperture `a`, the conditions tested in the order of Table 3-5 (R64 to R66). -/
def State.writeData (s : State) (p : Port) (a : ApIdx) (w : WordIdx) (v : Word) : State :=
  let pi := s.port p
  if pi.session = .offline then s
  else if pi.inFlight a then s.setPort p (pi.latchFault .writeInFlight (some a))
  else match s.aperture p a with
    | .closed => s.setPort p (pi.latchFault .writeToRead (some a))
    | .reading _ _ _ _ _ => s.setPort p (pi.latchFault .writeToRead (some a))
    | .writing b buf _ => if w.val < b.length.val then { s with mem := s.mem.writeWord buf w v } else s
    | .orphaned b buf _ => if w.val < b.length.val then { s with mem := s.mem.writeWord buf w v } else s

/-- A change of one Port Interface by a host write, discarded in OFFLINE (R149). -/
def State.writePort (s : State) (p : Port) (f : PortIf → PortIf) : State :=
  if (s.port p).session = .offline then s else s.updatePort p f

/-- The take word's write: the oldest record of the ring is removed; an empty ring is passed over (R133). -/
def State.takeRecord (s : State) (p : Port) : State :=
  if (s.port p).session = .offline then s
  else s.setRing p { s.ring p with records := (s.ring p).records.tail }

/-- Bits 0 to 6 of a word written to the latch, mask or force word (R167, Table 10-7). -/
def latchBits (v : Word) : BitVec 7 := Word.field v 0 7

/-- A host write of a window word (Table 10-1): the words marked "disregarded" and the unused locations change nothing (R167). -/
def State.writeWindowWord (s : State) (p : Port) (x : WindowWord) (v : Word) : State :=
  match x with
  | .command => s.writeCommand p v
  | .param i => s.writePort p fun pi => { pi with params := pi.params.set i v }
  | .latch => s.writePort p (·.clearLatch (latchBits v))
  | .mask => s.writePort p fun pi => { pi with mask := latchBits v }
  | .force => s.writePort p (·.forceLatch (latchBits v))
  | .take => s.takeRecord p
  | .apData a w => s.writeData p a w v
  | .status => s
  | .result _ => s
  | .session => s
  | .faultRecord => s
  | .head _ => s
  | .apStatus _ _ => s
  | .unused => s

/-- DATA_WORD_WRITE: a host write of an aperture data word (R64). -/
def execDataWordWrite (p : Port) (a : ApIdx) (w : WordIdx) (v : Word) (s : State) : Host.Outcome State Fault Refusal :=
  .next (s.writeData p a w v)

/-- LATCH_WORD: a host write of the latch word (R162). -/
def execLatchWord (p : Port) (v : Word) (s : State) : Host.Outcome State Fault Refusal :=
  .next (s.writePort p (·.clearLatch (latchBits v)))

/-- MASK_WORD: a host write of the mask word (R163). -/
def execMaskWord (p : Port) (v : Word) (s : State) : Host.Outcome State Fault Refusal :=
  .next (s.writePort p fun pi => { pi with mask := latchBits v })

/-- FORCE_WORD: a host write of the force word (R162). -/
def execForceWord (p : Port) (v : Word) (s : State) : Host.Outcome State Fault Refusal :=
  .next (s.writePort p (·.forceLatch (latchBits v)))

/-- TAKE: a host write of the take word; every value written is a take (R133, R167). -/
def execTake (p : Port) (_v : Word) (s : State) : Host.Outcome State Fault Refusal := .next (s.takeRecord p)

/-- WINDOW_WRITE: a host write at an offset. The row covers the offsets of `WindowWord.isPlain`; at another offset the write is
the one that the window map gives. -/
def execWindowWrite (p : Port) (offset : Offset) (v : Word) (s : State) : Host.Outcome State Fault Refusal :=
  .next (s.writeWindowWord p (windowWord offset) v)

end Sys2Proof.Machine
end

