-- ==== Sys2Proof/Machine/PortCommands.lean ====
section
/-! DEFINITION. The commands that the Port Interface takes itself, NOP, RTM, ATT, DET and unknown codes, and the two rows that are
a host's write of the command word (Sections 9.1 to 9.3). -/

namespace Sys2Proof.Machine

/-- The Port Interface takes the NOP of port `p` (R159). -/
def execNop (p : Port) (s : State) : Host.Outcome State Fault Refusal :=
  match s.commandAt p .atPort with
  | some { req := .nop, .. } => .next (s.complete p .ok noResults)
  | _ => .next s

/-- The Port Interface takes a command of port `p` whose code names no command (R159). -/
def execBadCommand (p : Port) (s : State) : Host.Outcome State Fault Refusal :=
  match s.commandAt p .atPort with
  | some { req := .bad _, .. } => .next (s.complete p .badCommand noResults)
  | _ => .next s

/-- The Port Interface takes the RTM of port `p`: the time base in two result words (R103). -/
def execRtm (p : Port) (s : State) : Host.Outcome State Fault Refusal :=
  match s.commandAt p .atPort with
  | some { req := .rtm, .. } => .next (s.complete p .ok (resultWords [timeLow s.timeBase, timeHigh s.timeBase]))
  | _ => .next s

/-- ATT in UNATTACHED: the session becomes ATTACHED, a PORT_ATTACHED report is made and a peer notice handed (R151). -/
def State.attach (s : State) (p : Port) : State :=
  ((s.updatePort p fun pi => { pi with session := .attached }).toNotify (.port (.attached p s.timeBase))).handPeerNotice p

/-- The Port Interface takes the ATT of port `p`. In UNATTACHED it attaches, and the ATT stays pending; it completes when its row
is taken again, its report having reached the Notification Unit, so that a loss of presence may fall in between and the teardown
then waits for it (R150, R151, R153, R175; DESIGN CHOICE, log entry 16). Outside UNATTACHED it completes with no other change
(R151, log entry 10). -/
def execAtt (p : Port) (s : State) : Host.Outcome State Fault Refusal :=
  match s.commandAt p .atPort with
  | some { req := .att, .. } =>
    .next (if (s.port p).session = .unattached then s.attach p else s.complete p .ok noResults)
  | _ => .next s

/-- The Port Interface takes the DET of port `p`: in ATTACHED the teardown begins and the DET stays pending (R152, R153). A DET
that finds a teardown begun by loss of presence waiting for it starts no second one: its completion is discarded (R153, R155, log
entry 10). -/
def execDet (p : Port) (s : State) : Host.Outcome State Fault Refusal :=
  match s.commandAt p .atPort with
  | some { req := .det, stage := _, locals := l, answers := a } =>
    if (s.port p).session = .attached then
      .next (s.updatePort p fun pi =>
        { pi with
          session := .teardown .store
          slot := some { req := .det, stage := .detach, locals := l, answers := a } }).arbitrate
    else .next (s.complete p .notAttached noResults)
  | _ => .next s

/-- A host write of the command word that meets a READY slot: an arrival (R156). -/
def execCommandArrival (p : Port) (v : Word) (s : State) : Host.Outcome State Fault Refusal := .next (s.writeCommand p v)

/-- A host write of the command word that meets a PENDING slot: an overrun (R158). Whether the slot is PENDING is found at the
write, as R158 has it for a write that falls together with a completion. -/
def execCommandOverrun (p : Port) (v : Word) (s : State) : Host.Outcome State Fault Refusal := .next (s.writeCommand p v)

end Sys2Proof.Machine
end

