-- ==== Sys2Proof/Machine/Publication.lean ====
section
/-! DEFINITION. Publication: the command PUB with CONDITIONAL and RETAIN (Chapter 4). -/

namespace Sys2Proof.Machine

/-- Write right is still present: the translation of the recorded local number reached a grant that maps it to the member's
entry id and gives WRITE right (R72). -/
def rightToPublish (ans : Answer) (e : EntryId) : Bool :=
  match ans with
  | none => false
  | some (g, r) => g = e && r.write

/-- The checks of PUB on one member (R71). -/
def State.pubCheck (s : State) (p : Port) (conditional : Bool) (ans : Vector Answer 8) (a : ApIdx) : Option Status :=
  match s.aperture p a with
  | .orphaned _ _ _ => some .entryGone
  | .closed => some .apertureState
  | .reading _ _ _ _ _ => some .apertureState
  | .writing b _ base =>
    let x := s.entry b.entry
    if !rightToPublish ans[a] b.entry then some .revoked
    else if x.state = .undefined ∨ x.generation ≠ b.generation then some .entryGone
    else if conditional ∧ x.version ≠ base then some .conflict
    else none

/-- The entry after a publication of buffer `buf` by port `p` at time `now` (R76, R83). -/
def Entry.published (x : Entry) (p : Port) (buf : BufId) (now : Time) : Entry :=
  { x with
    state := .current
    version := x.version + 1
    current := some buf
    publishTime := some now
    publisher := some p
    countdown := x.period }

/-- Publish one member: the old current buffer leaves the entry, the staged buffer becomes current, the readers' UPDATED flags
are set and the PUBLISHED report is made (R33, R76 to R78). -/
def State.makeCurrent (s : State) (p : Port) (b : Binding) (buf : BufId) : State :=
  let x := s.entry b.entry
  let s1 := match x.current with
    | some old => s.retireBuffer old
    | none => s
  let s2 := s1.setBuffer buf { state := .current b.entry, holds := 0 }
  let s3 := s2.setEntry b.entry (x.published p buf s.timeBase)
  let s4 := s3.mapApertures (Aperture.markUpdated b.entry x.generation)
  s4.reportEntry .published b.entry (x.version + 1) s.timeBase (some p)

/-- End a published member: closed without RETAIN (R79); with RETAIN reopened on the head of the free list, filled with a copy of
the value just published, based on the version just given (R80). -/
def State.endMember (s : State) (p : Port) (retain : Bool) (a : ApIdx) (b : Binding) (buf : BufId) : State :=
  if retain then
    let x := s.entry b.entry
    match s.allocate p a (copyFill s.mem buf x.length) with
    | some (nb, s') => s'.setAperture p a (.writing b nb x.version)
    | none => s
  else s.setAperture p a .closed

/-- The whole of one member's work at an accepted PUB (Section 4.3). -/
def State.publishMember (s : State) (p : Port) (retain : Bool) (a : ApIdx) : State :=
  match s.aperture p a with
  | .writing b buf _ => (s.makeCurrent p b buf).endMember p retain a b buf
  | _ => s

/-- The version that the member at position `a` gives its entry, 0 outside the mask (R81). -/
def State.versionGiven (s : State) (p : Port) (mask : Byte) (a : ApIdx) : Version :=
  match mask.getLsbD a, s.aperture p a with
  | true, .writing b _ _ => (s.entry b.entry).version + 1
  | _, _ => 0

/-- The results of an accepted PUB taken in state `s`: the publish time and the versions by position (R81, Table 10-5). -/
def State.pubResults (s : State) (p : Port) (mask : Byte) : Results :=
  resultWords ([timeLow s.timeBase, timeHigh s.timeBase] ++ (List.finRange 8).map fun a => s.versionGiven p mask a)

/-- PUB: every member checked, then the buffer check of RETAIN, then every member published at one store event (R71, R74, R76). -/
def State.publish (s : State) (p : Port) (mask : Byte) (conditional retain : Bool) (ans : Vector Answer 8) : Answered :=
  match firstFailure (s.pubCheck p conditional ans) (members mask) with
  | some (a, st) => s.refuse st (failedAt a)
  | none =>
    match (if retain then (members mask)[s.freeList.length]? else none) with
    | some a => s.refuse .noBuffer (failedAt a)
    | none =>
      ((members mask).foldl (fun s a => s.publishMember p retain a) s, .ok, s.pubResults p mask)

/-- SC takes the PUB of port `p`. -/
def execPub (p : Port) (s : State) : Host.Outcome State Fault Refusal :=
  match s.storeCommand p with
  | some { req := .pub mask conditional retain, answers := ans, .. } =>
    .next (s.finishStore p (s.publish p mask conditional retain ans))
  | _ => .next s

end Sys2Proof.Machine
end

