-- ==== Sys2Proof/Machine/Sessions.lean ====
section
/-! DEFINITION. Presence, teardown, device reset, and the notices that a Port Interface takes (Sections 9.1, 9.2, 9.5, 9.7). -/

namespace Sys2Proof.Machine

/-! ### Presence -/

/-- The Port Interface at an entry into OFFLINE: the state that device reset leaves (R150, R166). Notices handed and clears not
yet taken are on their way between blocks and stay there (for a clear: DESIGN CHOICE, log entry 18). -/
def PortIf.goOffline (pi : PortIf) : PortIf :=
  { PortIf.offline false with
    notices := pi.notices, crossings := pi.crossings, overflowClears := pi.overflowClears }

/-- The presence input rises (R150, Table 9-2). -/
def PortIf.presenceRises (pi : PortIf) : PortIf :=
  match pi.session with
  | .offline => { pi with presence := true, session := .unattached }
  | .unattached => { pi with presence := true }
  | .attached => { pi with presence := true }
  | .teardown _ => { pi with presence := true }

/-- The presence input falls (R150, Table 9-2): from ATTACHED the teardown begins, waiting first for a command in flight (R153). -/
def PortIf.presenceFalls (pi : PortIf) : PortIf :=
  match pi.session with
  | .offline => { pi with presence := false }
  | .unattached => pi.goOffline
  | .attached => { pi with presence := false, session := .teardown (if pi.slot.isSome then .await else .store) }
  | .teardown _ => { pi with presence := false }

/-- PRESENCE_ASSERTED of port `p` (R150). -/
def execPresenceAsserted (p : Port) (s : State) : Host.Outcome State Fault Refusal := .next (s.updatePort p PortIf.presenceRises)

/-- PRESENCE_DEASSERTED of port `p` (R150). From ATTACHED with no command in flight, the teardown's request arrives at SC's arbiter
(R153, R160). -/
def execPresenceDeasserted (p : Port) (s : State) : Host.Outcome State Fault Refusal :=
  let s' := s.updatePort p PortIf.presenceFalls
  .next (if (s.port p).session = .attached then s'.arbitrate else s')

/-! ### Device reset -/

/-- A Port Interface after device reset: OFFLINE, or UNATTACHED at once where presence is asserted (R166). -/
def PortIf.afterReset (presence : Bool) : PortIf :=
  if presence then { PortIf.offline true with session := .unattached } else PortIf.offline false

/-- DEVICE_RESET: every block in its reset state, the presence inputs at the levels they have (R11, R43, R69, R105, R107, R137,
R138, R166). The queue of commands from outside is no part of the part. -/
def execDeviceReset (s : State) : Host.Outcome State Fault Refusal :=
  .next { State.reset with
    ports := s.ports.map fun pi => PortIf.afterReset pi.presence
    pending := s.pending }

/-! ### Teardown -/

/-- SC takes the teardown request of port `p`, if the arbiter has granted it: the eight apertures are closed at one store event (R42,
R68, R153). -/
def execTeardownSc (p : Port) (s : State) : Host.Outcome State Fault Refusal :=
  if s.granted = some (.port p) ∧ (s.port p).session = .teardown .store then
    .next ((s.endStoreEvent (s.closeAll p (List.finRange 8))).updatePort p fun pi =>
      { pi with session := .teardown .claim }).arbitrate
  else .next s

/-- The Claim Unit's work at a teardown: a holder's claim passes, a waiter leaves the list (R146). -/
def State.releaseAtTeardown (s : State) (p : Port) : State :=
  if s.holder = some p then s.passClaim else { s with waiters := s.waiters.erase p }

/-- The Claim Unit takes the teardown request of port `p`, and the request to the Notification Unit follows (R146, R154). -/
def execTeardownCu (p : Port) (s : State) : Host.Outcome State Fault Refusal :=
  if (s.port p).session = .teardown .claim then
    .next (((s.releaseAtTeardown p).updatePort p fun pi => { pi with session := .teardown .notify }).toNotify (.teardown p))
  else .next s

/-- The Notification Unit takes the teardown request of port `p` at the head of its input order: subscriptions absent, ring empty,
lost count and sequence counter 0 (R136, R154). -/
def execTeardownNu (p : Port) (s : State) : Host.Outcome State Fault Refusal :=
  match s.nuInput with
  | .teardown q :: rest =>
    if q = p ∧ (s.port p).session = .teardown .notify then
      .next (({ s with
        nuInput := rest
        subs := s.subs.set p (Vector.replicate 512 Subscription.absent) }.setRing p Ring.cleared).updatePort p
          fun pi => { pi with session := .teardown .depart })
    else .next s
  | _ => .next s

/-- The end of a teardown at the Port Interface: latch, mask and fault record cleared, and the session chosen by presence; a DET
that began the teardown completes OK after the clearing, or is discarded in OFFLINE (R152, R154). A clear of OVERFLOW handed
before and not yet taken stays on its way to the Notification Unit; the spec does not say whether it outlives the teardown (DESIGN
CHOICE, log entry 18). -/
def PortIf.endTeardown (pi : PortIf) : PortIf :=
  if pi.presence then
    let cleared := { pi with session := .unattached, latch := 0, mask := 0, fault := FaultRecord.empty, overflowRaised := false }
    if pi.slot.isSome then cleared.complete .ok noResults else cleared
  else pi.goOffline

/-- DEPARTURE: the PORT_DETACHED report and the peer notices, then the end of the teardown of port `p` (R154). -/
def execDeparture (p : Port) (s : State) : Host.Outcome State Fault Refusal :=
  if (s.port p).session = .teardown .depart then
    .next (((s.toNotify (.port (.detached p s.timeBase))).handPeerNotice p).updatePort p PortIf.endTeardown)
  else .next s

/-! ### Notices taken by a Port Interface -/

/-- A notice taken: the bit is set if the session is ATTACHED, and the notice discarded otherwise (R39, R143, R151). -/
def PortIf.noticed (pi : PortIf) (b : BitVec 7) : PortIf := if pi.session = .attached then pi.setLatch b else pi

/-- PEER_NOTICE: the Port Interface takes a peer notice that is the oldest notice handed to it (R151, R175, log entry 17). -/
def execPeerNotice (p : Port) (s : State) : Host.Outcome State Fault Refusal :=
  match (s.port p).notices with
  | .peer _ :: rest => .next (s.updatePort p fun pi => { pi with notices := rest }.noticed bitPeer)
  | _ => .next s

/-- CLAIM_MOVE: the Port Interface takes a move of the claim that is the oldest notice handed to it (R143, R175, log entry 17). -/
def execClaimMove (p : Port) (s : State) : Host.Outcome State Fault Refusal :=
  match (s.port p).notices with
  | .claimMove :: rest => .next (s.updatePort p fun pi => { pi with notices := rest }.noticed bitClaim)
  | _ => .next s

/-- CROSSING: the Port Interface takes a crossing of the pool low threshold (R39). -/
def execCrossing (p : Port) (s : State) : Host.Outcome State Fault Refusal :=
  if (s.port p).crossings = 0 then .next s
  else .next (s.updatePort p fun pi => { pi with crossings := pi.crossings - 1 }.noticed bitPoolLow)

end Sys2Proof.Machine
end

