-- ==== Sys2Proof/Machine/Dispatch.lean ====
section
/-! DEFINITION. What each command of the table does: one call of its meaning for each constructor of Instr. -/

namespace Sys2Proof.Machine

def exec (i : Instr) (s : State) : Host.Outcome State Fault Refusal :=
  match i with
  | .nop p => Sys2Proof.Machine.execNop p s
  | .att p => Sys2Proof.Machine.execAtt p s
  | .det p => Sys2Proof.Machine.execDet p s
  | .rtm p => Sys2Proof.Machine.execRtm p s
  | .ord p => Sys2Proof.Machine.execOrd p s
  | .ref p => Sys2Proof.Machine.execRef p s
  | .owr p => Sys2Proof.Machine.execOwr p s
  | .pub p => Sys2Proof.Machine.execPub p s
  | .cls p => Sys2Proof.Machine.execCls p s
  | .ins p => Sys2Proof.Machine.execIns p s
  | .pst p => Sys2Proof.Machine.execPst p s
  | .sub p => Sys2Proof.Machine.execSub p s
  | .mrk p => Sys2Proof.Machine.execMrk p s
  | .cla p => Sys2Proof.Machine.execCla p s
  | .rel p => Sys2Proof.Machine.execRel p s
  | .define p => Sys2Proof.Machine.execDefine p s
  | .wdr p => Sys2Proof.Machine.execWdr p s
  | .sfr p => Sys2Proof.Machine.execSfr p s
  | .spt p => Sys2Proof.Machine.execSpt p s
  | .sgr p => Sys2Proof.Machine.execSgr p s
  | .rgr p => Sys2Proof.Machine.execRgr p s
  | .badCommand p => Sys2Proof.Machine.execBadCommand p s
  | .commandOverrun p v => Sys2Proof.Machine.execCommandOverrun p v s
  | .dataWordWrite p a w v => Sys2Proof.Machine.execDataWordWrite p a w v s
  | .latchWord p v => Sys2Proof.Machine.execLatchWord p v s
  | .maskWord p v => Sys2Proof.Machine.execMaskWord p v s
  | .forceWord p v => Sys2Proof.Machine.execForceWord p v s
  | .take p v => Sys2Proof.Machine.execTake p v s
  | .windowWrite p offset v => Sys2Proof.Machine.execWindowWrite p offset v s
  | .presenceAsserted p => Sys2Proof.Machine.execPresenceAsserted p s
  | .presenceDeasserted p => Sys2Proof.Machine.execPresenceDeasserted p s
  | .deviceReset => Sys2Proof.Machine.execDeviceReset s
  | .millisecondExpiry => Sys2Proof.Machine.execMillisecondExpiry s
  | .tick => Sys2Proof.Machine.execTick s
  | .staleTransition => Sys2Proof.Machine.execStaleTransition s
  | .emptyExpiry => Sys2Proof.Machine.execEmptyExpiry s
  | .teardownSc p => Sys2Proof.Machine.execTeardownSc p s
  | .teardownCu p => Sys2Proof.Machine.execTeardownCu p s
  | .teardownNu p => Sys2Proof.Machine.execTeardownNu p s
  | .departure p => Sys2Proof.Machine.execDeparture p s
  | .entryReport => Sys2Proof.Machine.execEntryReport s
  | .portReport => Sys2Proof.Machine.execPortReport s
  | .peerNotice p => Sys2Proof.Machine.execPeerNotice p s
  | .claimMove p => Sys2Proof.Machine.execClaimMove p s
  | .crossing p => Sys2Proof.Machine.execCrossing p s
  | .overflowClear p => Sys2Proof.Machine.execOverflowClear p s
  | .commandArrival p v => Sys2Proof.Machine.execCommandArrival p v s
  | .commandTranslation p => Sys2Proof.Machine.execCommandTranslation p s

end Sys2Proof.Machine
end

