-- ==== Sys2Proof/WellFormed.lean ====
section
/-! DEFINITION. Which terms of `Request` and `Instr` stand for something the part can meet. Operand ranges (ports, apertures,
word numbers, field widths) are held by the operand types; what is left is checked here. -/

namespace Sys2Proof

/-- A request is well formed when its `bad` code names no command (R159); every other request is. -/
def Request.wellFormed : Request → Bool
  | .bad code => (Cmd.ofCode code).isNone
  | _ => true

/-- The words whose writes the row WINDOW_WRITE covers: parameter words, unused locations and the words that Table 10-1 marks
"disregarded" (R167). The other writable words have rows of their own. -/
def WindowWord.isPlain : WindowWord → Bool
  | .command | .latch | .mask | .force | .take | .apData .. => false
  | _ => true

/-- A command is well formed when, if it is a WINDOW_WRITE, its offset is one that the row covers. -/
def Instr.wellFormed : Instr → Bool
  | .windowWrite _ offset _ => (windowWord offset).isPlain
  | _ => true

end Sys2Proof
end

