-- ==== Sys2Proof/Safety.lean ====
section
/-! DEFINITION. The terms in which the claims are stated: what every reachable state satisfies, block by block, and when a
command's turn has come. -/

namespace Sys2Proof.Machine

/-! ### When a block's turn has come -/

/-- SC's turn for the command of port `p`: the arbiter has granted the store to the port, and its slot holds a command standing
there (R157, R160). -/
structure State.storeTurn (s : State) (p : Port) (c : Pending) : Prop where
  granted : s.granted = some (.port p)
  slot : (s.port p).slot = some c
  stage : c.stage = .store

/-- The command of port `p` stands at place `k` (R157). -/
structure State.standsAt (s : State) (p : Port) (c : Pending) (k : Stage) : Prop where
  slot : (s.port p).slot = some c
  stage : c.stage = k

/-- The row with which the owning block carries out a request of port `p` (Table 9-3). -/
def Request.row (p : Port) : Request → Instr
  | .nop => .nop p | .att => .att p | .det => .det p | .rtm => .rtm p
  | .ord _ _ => .ord p | .ref _ => .ref p | .owr _ _ _ => .owr p | .pub _ _ _ => .pub p | .cls _ => .cls p
  | .ins _ => .ins p | .pst => .pst p | .sub _ _ _ => .sub p | .mrk => .mrk p | .cla _ => .cla p | .rel => .rel p
  | .define _ _ _ _ _ => .define p | .wdr _ => .wdr p | .sfr _ _ _ => .sfr p | .spt _ => .spt p
  | .sgr _ _ _ _ _ _ => .sgr p | .rgr _ _ => .rgr p | .bad _ => .badCommand p

/-- The rows of port `p` that pass SC's arbiter (R160). -/
def storeRows (p : Port) : List Instr :=
  [.ord p, .ref p, .owr p, .pub p, .cls p, .ins p, .pst p, .define p, .wdr p, .sfr p, .spt p]

/-- How far port `p` stands behind the head of the arbiter's rotation: 0 for the port after the one last granted, 3 for the one
last granted (R160). -/
def State.rotationPlace (s : State) (p : Port) : Nat := (p - s.lastGranted - 1).val

/-- What a port's refused store command leaves: the store free for the next grant, the command completed, and nothing else (R52, R58,
R75). -/
def State.refusedWith (s : State) (p : Port) (st : Status) (rw : Results) : State :=
  State.complete { s with granted := none } p st rw

/-- Whether a tick, were it taken now, brings the running countdown of entry `e` to 0 (R96). -/
def State.dueAt (s : State) (e : EntryId) : Bool :=
  ((s.entry e).state = .empty || (s.entry e).state = .current) && decide (0 < (s.entry e).countdown.toNat) &&
    decide ((s.entry e).countdown.toNat ≤ s.owed.toNat)

/-! ### What an aperture names -/

/-- The buffer that an aperture stages. -/
def Aperture.stages : Aperture → Option BufId
  | .writing _ b _ => some b
  | .orphaned _ b _ => some b
  | _ => none

/-- The buffer that an aperture pins. -/
def Aperture.pins : Aperture → Option BufId
  | .reading _ b _ _ _ => some b
  | _ => none

/-- The binding of an open aperture. -/
def Aperture.binding : Aperture → Option Binding
  | .closed => none
  | .reading b _ _ _ _ => some b
  | .writing b _ _ => some b
  | .orphaned b _ _ => some b

/-- The buffer that an open aperture pins or stages. -/
def Aperture.bufferOf : Aperture → Option BufId
  | .closed => none
  | .reading _ b _ _ _ => some b
  | .writing _ b _ => some b
  | .orphaned _ b _ => some b

/-! ### What a set of closings leaves (R29, R35, R36, R61, R62) -/

/-- How many of the set's apertures numbered up to `a` satisfy a test. -/
def countUpTo (mask : Byte) (a : ApIdx) (f : ApIdx → Bool) : Nat :=
  (List.finRange 8).countP fun c => decide (c ≤ a) && mask.getLsbD c && f c

/-- How many of the set's apertures numbered up to `a` pin buffer `b`. -/
def State.pinsUpTo (s : State) (p : Port) (mask : Byte) (a : ApIdx) (b : BufId) : Nat :=
  countUpTo mask a fun c => decide ((s.aperture p c).pins = some b)

/-- The buffer that the closing of member `a` of a set returns to the free list: a writer's staged buffer, or the RETIRED buffer of
a reader whose pin is the last one. -/
def State.returnedBy (s : State) (p : Port) (mask : Byte) (a : ApIdx) : Option BufId :=
  match s.aperture p a with
  | .closed => none
  | .reading _ b _ _ _ => if (s.buffer b).state = .retired ∧ (s.buffer b).holds = s.pinsUpTo p mask a b then some b else none
  | .writing _ b _ => some b
  | .orphaned _ b _ => some b

/-- `u` is `s` after the apertures of port `p` that `mask` names are closed at one store event. -/
structure State.ClosedTo (s : State) (p : Port) (mask : Byte) (u : State) : Prop where
  apertures : ∀ q a, u.aperture q a = if q = p ∧ mask.getLsbD a = true then .closed else s.aperture q a
  freeList : u.freeList = s.freeList ++ (members mask).filterMap (s.returnedBy p mask)
  freed : ∀ b, b ∈ (members mask).filterMap (s.returnedBy p mask) → u.buffer b = { state := .free, holds := 0 }
  kept : ∀ b, b ∉ (members mask).filterMap (s.returnedBy p mask) →
    u.buffer b = { s.buffer b with holds := (s.buffer b).holds - s.pinsUpTo p mask 7 b }
  rest : u = { s with apertures := u.apertures, freeList := u.freeList, buffers := u.buffers }

/-! ### What a refresh moves (R29, R36, R56) -/

/-- The buffer that member `a` of a refresh leaves: the pinned one, where the entry's current buffer is another. -/
def State.leaves (s : State) (p : Port) (a : ApIdx) : Option BufId :=
  match s.aperture p a with
  | .reading b buf _ _ _ => if (s.entry b.entry).current = some buf then none else some buf
  | _ => none

/-- The buffer that member `a` of a refresh newly pins: the entry's current buffer, where it is another than the pinned one. -/
def State.joins (s : State) (p : Port) (a : ApIdx) : Option BufId :=
  match s.aperture p a with
  | .reading b buf _ _ _ => if (s.entry b.entry).current = some buf then none else (s.entry b.entry).current
  | _ => none

/-- The buffer that member `a` of a refresh returns to the free list: the RETIRED one it leaves, if no pin is then left on it. -/
def State.freedByRefresh (s : State) (p : Port) (mask : Byte) (a : ApIdx) : Option BufId :=
  match s.leaves p a with
  | some b =>
    if (s.buffer b).state = .retired ∧ (s.buffer b).holds = countUpTo mask a fun c => decide (s.leaves p c = some b) then some b
    else none
  | none => none

/-! ### What a publication changes (R29, R76 to R80) -/

/-- The entry that member `a` of a publication publishes. -/
def State.publishedBy (s : State) (p : Port) (a : ApIdx) : Option EntryId :=
  match s.aperture p a with
  | .writing b _ _ => some b.entry
  | _ => none

/-- The old current buffer of the entry that member `a` publishes. -/
def State.replacedBy (s : State) (p : Port) (a : ApIdx) : Option BufId :=
  (s.publishedBy p a).bind fun e => (s.entry e).current

/-- The old current buffer that member `a` returns to the free list: one that no reader holds. -/
def State.freedByPublish (s : State) (p : Port) (a : ApIdx) : Option BufId :=
  (s.replacedBy p a).filter fun b => decide ((s.buffer b).holds = 0)

/-- The buffer on which RETAIN reopens member `a`: the free list's member in the place that `a` has in the set. -/
def State.reopenedOn (s : State) (mask : Byte) (a : ApIdx) : Option BufId :=
  s.freeList[countUpTo mask a (fun _ => true) - 1]?

/-! ### How a ring takes a record (R128, R131) -/

/-- A ring and its Port Interface before and after a record is made for the port: appended with the counter's value and NOTIFY, or
discarded by a full ring with the lost count raised and OVERFLOW. -/
def Appended (r : Ring) (pi : PortIf) (x : Record) (r' : Ring) (pi' : PortIf) : Prop :=
  (r.records.length < 64 ∧ r' = { r with records := r.records ++ [{ x with seq := r.seq }], seq := r.seq + 1 } ∧
      pi' = { pi with latch := pi.latch ||| bitNotify }) ∨
    (64 ≤ r.records.length ∧ r' = { r with lost := if r.lost = 0xFFFF then 0xFFFF else r.lost + 1 } ∧
      pi' = { pi with
        latch := pi.latch ||| bitOverflow
        overflowRaised := pi.overflowRaised || (decide (0 < pi.overflowClears) && decide (pi.latch &&& bitOverflow = 0)) })

/-! ### The claim (R138) -/

/-- The wait list holds no port twice and never the holder, and is empty whenever the holder is NONE. -/
structure State.ClaimOk (s : State) : Prop where
  nodup : s.waiters.Nodup
  holderOutside : ∀ p, s.holder = some p → p ∉ s.waiters
  emptyWhenFree : s.holder = none → s.waiters = []

/-! ### The rings (R128, R130) -/

/-- A ring holds at most 64 records, their sequences run up to the counter, and no two PUBLISHED records of one local number were
both produced through a coalescing subscription. -/
structure Ring.Ok (r : Ring) : Prop where
  size : r.records.length ≤ 64
  sequences : ∀ i (h : i < r.records.length), r.records[i].seq + BitVec.ofNat 16 (r.records.length - i) = r.seq
  coalesced : r.records.Pairwise fun x y =>
    ¬(x.kind = .published ∧ y.kind = .published ∧ x.localNo = y.localNo ∧ x.viaCoalesce = true ∧ y.viaCoalesce = true)

/-! ### The catalog (Table 1-2, R2, R9) -/

/-- The fields that an entry holds in its state. A watched CURRENT entry's countdown is above 0, and that of a watched EMPTY entry
is unless an expiry has been counted: no expiry is lost (R9, R96). -/
def Entry.Ok (x : Entry) : Prop :=
  match x.state with
  | .undefined => x = Entry.undefinedWith x.generation
  | .empty =>
    1 ≤ x.length.val ∧ x.producer.isSome ∧ x.version = 0 ∧ x.current = none ∧ x.publishTime = none ∧ x.publisher = none ∧
      (x.period = 0 → x.countdown = 0) ∧ x.countdown.toNat ≤ max x.period.toNat x.grace.toNat ∧
      (x.countdown = 0 → x.period = 0 ∨ 1 ≤ x.staleCount.toNat)
  | .current =>
    1 ≤ x.length.val ∧ x.producer.isSome ∧ x.current.isSome ∧ x.publishTime.isSome ∧ x.publisher.isSome ∧
      x.countdown.toNat ≤ x.period.toNat ∧ (x.countdown = 0 → x.period = 0)
  | .stale =>
    1 ≤ x.length.val ∧ x.producer.isSome ∧ x.current.isSome ∧ x.publishTime.isSome ∧ x.publisher.isSome ∧
      x.countdown = 0 ∧ 1 ≤ x.staleCount.toNat

/-- Every entry holds the fields of its state. -/
def State.CatalogOk (s : State) : Prop := ∀ e, (s.entry e).Ok

/-! ### The pool (R25, R27, R28) -/

/-- Number of READING apertures, over all ports, that pin a buffer. -/
def State.pinCount (s : State) (b : BufId) : Nat :=
  s.apertures.toList.foldr (fun aps n => aps.toList.countP (fun x => x.pins = some b) + n) 0

/-- Every buffer is in exactly one of its four places, its record agrees with the free list, the aperture or the entry that names
it, and its hold count is the number of its readers. -/
structure State.PoolOk (s : State) : Prop where
  freeNodup : s.freeList.Nodup
  free : ∀ b, b ∈ s.freeList ↔ (s.buffer b).state = .free
  staged : ∀ b p a, (s.buffer b).state = .staged p a ↔ (s.aperture p a).stages = some b
  current : ∀ b e, (s.buffer b).state = .current e ↔ (s.entry e).current = some b
  holds : ∀ b, (s.buffer b).holds = s.pinCount b
  retiredHeld : ∀ b, (s.buffer b).state = .retired → 1 ≤ (s.buffer b).holds
  unheld : ∀ b, (s.buffer b).state = .free ∨ (∃ p a, (s.buffer b).state = .staged p a) → (s.buffer b).holds = 0

/-! ### The apertures and their entries (R44, R47 to R50, R58, R73) -/

/-- A reader that is not GONE belongs to the entry's present definition; it shows UPDATED exactly when it pins an older buffer
than the current one, which is then RETIRED, and otherwise it names the version and time of the value it pins. A GONE reader pins
a RETIRED buffer. -/
def State.ReaderOk (s : State) (b : Binding) (buf : BufId) (v : Version) (t : Time) (f : ReadFlags) : Prop :=
  let x := s.entry b.entry
  if f.gone then (s.buffer buf).state = .retired
  else
    (x.state = .current ∨ x.state = .stale) ∧ x.generation = b.generation ∧ x.length = b.length ∧
      (f.updated = true ↔ x.current ≠ some buf) ∧ (f.updated = true → (s.buffer buf).state = .retired) ∧
      (f.updated = false → v = x.version ∧ x.publishTime = some t ∧ (x.state = .stale → f.stale = true))

/-- A WRITING aperture belongs to the present definition of an entry that its port may publish. -/
def State.WriterOk (s : State) (p : Port) (b : Binding) : Prop :=
  let x := s.entry b.entry
  x.state ≠ .undefined ∧ x.generation = b.generation ∧ x.length = b.length ∧
    (x.producer = some (.port p) ∨ x.producer = some .shared)

/-- Every aperture agrees with the entry it was opened on, and no port has two writers for one entry id. -/
structure State.BindingsOk (s : State) : Prop where
  readers : ∀ p a b buf v t f, s.aperture p a = .reading b buf v t f → s.ReaderOk b buf v t f
  writers : ∀ p a b buf v, s.aperture p a = .writing b buf v → s.WriterOk p b
  apart : ∀ p a a' e, (s.aperture p a).stages.isSome → (s.aperture p a').stages.isSome →
    (s.aperture p a).binding.map Binding.entry = some e → (s.aperture p a').binding.map Binding.entry = some e → a = a'

/-- Words at or beyond the length are 0 in every buffer that an entry or an open aperture names (R32). -/
structure State.TailsOk (s : State) : Prop where
  entries : ∀ e b w, (s.entry e).current = some b → (s.entry e).length.val ≤ w.val → s.mem.readWord b w = 0
  apertures : ∀ p a x b w, (s.aperture p a).binding = some x → (s.aperture p a).bufferOf = some b → x.length.val ≤ w.val →
    s.mem.readWord b w = 0

/-! ### The Port Interfaces (R132, R150 to R156, R165, R166) -/

/-- Session, presence, slot and fault record agree; an OFFLINE port holds everything as device reset leaves it, but for what other
blocks have handed or been handed; and a mark of OVERFLOW stands only where a clear waits and the bit is set. -/
structure PortIf.Ok (pi : PortIf) : Prop where
  session :
    match pi.session with
    | .offline =>
      pi = { PortIf.offline false with
        notices := pi.notices, crossings := pi.crossings, overflowClears := pi.overflowClears }
    | .unattached => pi.presence = true ∧ ∀ c, pi.slot = some c → c.req = .att ∧ c.stage = .atPort
    | .attached => pi.presence = true ∧ ∀ c, pi.slot = some c → c.stage ≠ .detach
    | .teardown .await => ∃ c, pi.slot = some c ∧ c.stage ≠ .detach
    | .teardown _ => ∀ c, pi.slot = some c → c.req = .det ∧ c.stage = .detach
  faultLatched : pi.fault.code ≠ none → pi.latch &&& bitFault ≠ 0
  faultEmpty : pi.fault.code = none → pi.fault = FaultRecord.empty
  overflowMark : pi.overflowRaised = true → 0 < pi.overflowClears ∧ pi.latch &&& bitOverflow ≠ 0

/-- Every Port Interface is so, and no peer notice handed to a port is about that port (R151). -/
def State.PortsOk (s : State) : Prop := ∀ p, (s.port p).Ok ∧ .peer p ∉ (s.port p).notices

/-! ### SC's arbiter (R160) -/

/-- The store is idle only while nobody waits for it, and is granted only to one that waits for it, a port being the one last
granted. -/
structure State.ArbiterOk (s : State) : Prop where
  idle : s.granted = none → s.tickWaiting = false ∧ ∀ p, (s.port p).waitsForStore = false
  tick : s.granted = some .tick → s.tickWaiting = true
  port : ∀ p, s.granted = some (.port p) → (s.port p).waitsForStore = true ∧ s.lastGranted = p

/-! ### The grants (R106) -/

/-- An enabled grant satisfies the two limits and gives a right; a disabled one holds zeros. -/
def Grant.Ok (g : Grant) : Prop :=
  if g.enabled then
    1 ≤ g.count.val ∧ g.localBase.val + g.count.val ≤ 4096 ∧ g.globalBase.val + g.count.val ≤ 512 ∧
      (g.rights.read || g.rights.write) = true
  else g = Grant.disabled

/-- Every grant is so. -/
def State.GrantsOk (s : State) : Prop := ∀ p i, (s.grant p i).Ok

/-! ### The Store Controller as a whole -/

/-- Catalog, pool and Buffer Memory together. -/
structure State.StoreOk (s : State) : Prop where
  catalog : s.CatalogOk
  pool : s.PoolOk
  mem : s.mem.wf

/-! ### The Notification Unit's input order (R125, R157) -/

/-- Whether the command in the slot is one, other than MRK, that stands at the Notification Unit. -/
def PortIf.subWaits (pi : PortIf) : Bool :=
  match pi.slot with
  | some c => decide (c.stage = .notify ∧ c.req ≠ .mrk)
  | none => false

/-- Whether the command in the slot is an MRK. -/
def PortIf.markWaits (pi : PortIf) : Bool :=
  match pi.slot with
  | some c => decide (c.req = .mrk)
  | none => false

/-- A SUB or MRK at the Notification Unit, and a teardown request sent to it, stand in the input order once, and nothing else
of these kinds stands there. -/
structure State.InputOk (s : State) : Prop where
  subs : ∀ p, s.nuInput.count (.sub p) = if (s.port p).subWaits then 1 else 0
  marks : ∀ p, s.nuInput.count (.mark p) = if (s.port p).markWaits then 1 else 0
  teardowns : ∀ p, s.nuInput.count (.teardown p) = if (s.port p).session = .teardown .notify then 1 else 0

/-! ### Safe runs -/

/-- A step is safe when it answers a next state: the part never stops. -/
def State.stepsOn (s : State) : Prop := ∃ t, step s = .next t

end Sys2Proof.Machine
end

