-- ==== Sys2Proof/Certificates/Slice0/Obligations.lean ====
section
/-! DEFINITION. The statements for the provers, family by family. Each docstring names the rules of spec/ that the statement rests
on and, where it rests on a choice of the model, the log entry. Status codes, bit positions and field places are those of the
tables of spec/. `storeTurn p c` says that SC's arbiter has granted the store to port `p`, whose command `c` SC takes next (R160;
that a store event begun is one grant held until its row is taken is DESIGN CHOICE, log entry 8). `arbitrate` is the arbiter's
look at its requests, which `ArbiterServesTicksFirstAndPortsInRotation` gives; `StoreEventEndsAndCommandCompletes` gives the end of
a store event and a completion (that both fall into the step of the owning block is DEDUCED, log entry 9). -/

open Sys2Proof Sys2Proof.Machine

/-! ### The queue and time -/

/-- A step takes the command at the front of the queue and runs it with the rest. -/
def Obligations.StepRunsFrontCommand : Prop :=
  ∀ (c : Instr) (rest : List Instr) (s : State), s.pending = c :: rest → step s = exec c { s with pending := rest }

/-- Every command and event answers a next state in every state: no row of the table stops the part (a row with nothing waiting
changes nothing, DESIGN CHOICE, log entry 1). -/
def Obligations.NoCommandStopsThePart : Prop :=
  (∀ (c : Instr) (s : State), ∃ t, exec c s = .next t) ∧ ∀ s : State, s.stepsOn

/-- R91, R93, R94, R160: one microsecond on each step of an empty queue, and the millisecond expiry, which is what the microseconds
up to it amount to (that time passes at these steps alone is DESIGN CHOICE, log entry 2). -/
def Obligations.TimePassesToTheMillisecondExpiry : Prop :=
  (∀ s : State, s.pending = [] →
     (s.phase.val ≠ 999 → step s = .next { s with timeBase := s.timeBase + 1, phase := s.phase + 1 }) ∧
     (s.phase.val = 999 → step s = .next (State.arbitrate { s with
       timeBase := s.timeBase + 1
       phase := 0
       owed := if s.owed = 0xFFFF then 0xFFFF else s.owed + 1
       tickWaiting := true }))) ∧
  ∀ s : State,
    exec .millisecondExpiry s = .next (State.arbitrate { s with
      timeBase := s.timeBase + BitVec.ofNat 48 (1000 - s.phase.val)
      phase := 0
      owed := if s.owed = 0xFFFF then 0xFFFF else s.owed + 1
      tickWaiting := true }) ∧
    (s.pending = [] →
      (Host.Core.run Sys2Proof.core (1000 - s.phase.val) s : Host.Outcome State Fault Refusal) = exec .millisecondExpiry s)

/-! ### The tick and its expiries -/

/-- R95, R96, R9: the tick's one store event, as it changes the catalog. -/
def Obligations.TickLowersCountdownsByTheOwedCount : Prop :=
  ∀ s : State, s.granted = some .tick →
    ∃ t, exec .tick s = .next t ∧
      (∀ e, t.entry e =
        if s.dueAt e then
          { s.entry e with
            state := if (s.entry e).state = .current then .stale else (s.entry e).state
            countdown := 0
            staleCount := if (s.entry e).staleCount = 0xFFFF then 0xFFFF else (s.entry e).staleCount + 1 }
        else if (s.entry e).state = .empty ∨ (s.entry e).state = .current then
          { s.entry e with countdown := BitVec.ofNat 16 ((s.entry e).countdown.toNat - s.owed.toNat) }
        else s.entry e) ∧
      t = State.arbitrate { s with
        owed := 0
        tickWaiting := false
        granted := none
        catalog := t.catalog
        apertures := t.apertures
        nuInput := t.nuInput }

/-- R97, R98, R99: the expiries that the tick's store event carries out, in ascending id, with the readers' flags and the reports.
The rows STALE_TRANSITION and EMPTY_EXPIRY are that event where it holds such an expiry (DESIGN CHOICE, log entry 3). -/
def Obligations.ExpiriesOfTheTickInProgress : Prop :=
  ∀ (s : State) (i : Instr), s.granted = some .tick →
    (i = .tick ∨
      i = .staleTransition ∧ (∃ e, s.dueAt e = true ∧ (s.entry e).state = .current) ∨
      i = .emptyExpiry ∧ ∃ e, s.dueAt e = true ∧ (s.entry e).state = .empty) →
    ∃ t, exec i s = .next t ∧ exec .tick s = .next t ∧
      (∀ e, s.dueAt e = true → (s.entry e).state = .current →
        t.entry e = { s.entry e with
          state := .stale
          countdown := 0
          staleCount := if (s.entry e).staleCount = 0xFFFF then 0xFFFF else (s.entry e).staleCount + 1 }) ∧
      (∀ e, s.dueAt e = true → (s.entry e).state = .empty →
        t.entry e = { s.entry e with
          countdown := 0
          staleCount := if (s.entry e).staleCount = 0xFFFF then 0xFFFF else (s.entry e).staleCount + 1 }) ∧
      (∀ q a, t.aperture q a =
        match s.aperture q a with
        | .reading b buf v time f =>
          .reading b buf v time { f with stale := (f.stale ||
            decide (∃ e, s.dueAt e = true ∧ (s.entry e).state = .current ∧ (s.entry e).current = some buf)) }
        | x => x) ∧
      t.nuInput = s.nuInput ++ (List.finRange 512).filterMap fun e =>
        if s.dueAt e then
          some (.entry { kind := .stale, entry := e, time := s.timeBase, origin := none,
                         version := (if (s.entry e).state = .current then (s.entry e).version else 0) })
        else none

/-! ### SC's arbiter and the end of a store event -/

/-- R160: only the request to which the store is granted is taken; the arbiter grants an idle store to a waiting tick, or else to
the waiting port that comes first after the one last granted; a request that finds the store idle and no other waiting is granted
at its arrival; and each end of a store event, of a command, a teardown or a tick, is followed by a grant that serves a waiting
port or brings it nearer to its turn, so that it waits for at most three other ports (log entry 8). -/
def Obligations.ArbiterServesTicksFirstAndPortsInRotation : Prop :=
  (∀ (s : State) (i : Instr),
     (∀ p, s.granted ≠ some (.port p) → i ∈ .teardownSc p :: storeRows p → exec i s = .next s) ∧
     (s.granted ≠ some .tick → i ∈ [.tick, .staleTransition, .emptyExpiry] → exec i s = .next s)) ∧
  (∀ s : State,
     (s.granted ≠ none → s.arbitrate = s) ∧
     (s.granted = none → s.tickWaiting = true → s.arbitrate = { s with granted := some .tick }) ∧
     (s.granted = none → s.tickWaiting = false →
       (∀ p, (s.port p).waitsForStore = true →
         (∀ q, (s.port q).waitsForStore = true → s.rotationPlace p ≤ s.rotationPlace q) →
         s.arbitrate = { s with granted := some (.port p), lastGranted := p }) ∧
       ((∀ p, (s.port p).waitsForStore = false) → s.arbitrate = s))) ∧
  (∀ s : State, s.granted = none → s.tickWaiting = false → (∀ q, (s.port q).waitsForStore = false) →
     (∀ (p : Port) (v : Word) (req : Request), (s.port p).slot = none → (s.port p).session = .attached →
       decodeRequest v (s.port p).params = req → (req.isConfiguration = true → s.holder = some p) →
       (match req with
         | .ref _ | .cls _ | .pst | .define _ _ _ _ _ | .wdr _ | .sfr _ _ _ | .spt _ => True
         | _ => False) →
       ∃ t, exec (.commandArrival p v) s = .next t ∧ t.granted = some (.port p) ∧ t.lastGranted = p) ∧
     ∃ t, exec .millisecondExpiry s = .next t ∧ t.granted = some .tick) ∧
  (∀ (s t : State) (q : Port) (i : Instr), s.granted = some (.port q) → s.lastGranted = q →
     ((∃ c, s.storeTurn q c ∧ i = Request.row q c.req ∧ i ∈ storeRows q) ∨
       i = .teardownSc q ∧ (s.port q).session = .teardown .store) →
     exec i s = .next t →
     (s.tickWaiting = true → t.granted = some .tick ∧ t.lastGranted = q) ∧
     (s.tickWaiting = false → ∀ p, p ≠ q → (s.port p).waitsForStore = true →
       ∃ r, t.granted = some (.port r) ∧ t.lastGranted = r ∧
         (r = p ∨ (t.port p).waitsForStore = true ∧ t.rotationPlace p < s.rotationPlace p))) ∧
  ∀ s t : State, s.granted = some .tick → exec .tick s = .next t → ∀ p, (s.port p).waitsForStore = true →
    ∃ r, t.granted = some (.port r) ∧ t.lastGranted = r ∧
      (r = p ∨ (t.port p).waitsForStore = true ∧ t.rotationPlace p < s.rotationPlace p)

/-- R38, R160: the end of a port's store event that began in `s` and left `u`; R157, R153: a completion at the Port Interface, and
the one that step 1 of a teardown discards, after which the arbiter looks at its requests (a completion falls into the owning
block's row: DEDUCED, log entry 9). -/
def Obligations.StoreEventEndsAndCommandCompletes : Prop :=
  (∀ s u : State,
     s.endStoreEvent u = { u with granted := none, ports := (s.endStoreEvent u).ports } ∧
     ∀ q, (s.endStoreEvent u).port q =
       if s.threshold.val ≤ s.freeList.length ∧ u.freeList.length < s.threshold.val then
         { u.port q with crossings := (u.port q).crossings + 1 }
       else u.port q) ∧
  ∀ (s : State) (p : Port) (st : Status) (rw : Results),
    s.complete p st rw = State.arbitrate { s with ports := (s.complete p st rw).ports } ∧
    (∀ q, q ≠ p → (s.complete p st rw).port q = s.port q) ∧
    ((s.port p).session ≠ .teardown .await →
      (s.complete p st rw).port p = { s.port p with
        slot := none, status := st, results := rw, latch := (s.port p).latch ||| bitDone }) ∧
    ((s.port p).session = .teardown .await →
      (s.complete p st rw).port p = { s.port p with
        slot := none, status := .notAttached, results := Vector.replicate 10 0, session := .teardown .store })

/-- The rows of the blocks change nothing where no work of theirs waits: no command of the row stands in the port's slot, it stands
at another place of its path, or no event of the row is at hand (DESIGN CHOICE, log entry 1). -/
def Obligations.RowsWithoutWaitingWorkChangeNothing : Prop :=
  ∀ (s : State) (p : Port),
    (∀ r : Request, (∀ c, (s.port p).slot = some c → Request.row p c.req = Request.row p r →
        c.stage = .translate ∨ c.stage = .detach) → exec (Request.row p r) s = .next s) ∧
    ((∀ c, (s.port p).slot = some c → c.stage ≠ .translate) → exec (.commandTranslation p) s = .next s) ∧
    (s.granted ≠ some .tick → exec .tick s = .next s) ∧
    (s.granted ≠ some .tick ∨ (∀ e, s.dueAt e = true → (s.entry e).state ≠ .current) → exec .staleTransition s = .next s) ∧
    (s.granted ≠ some .tick ∨ (∀ e, s.dueAt e = true → (s.entry e).state ≠ .empty) → exec .emptyExpiry s = .next s) ∧
    ((∀ r rest, s.nuInput ≠ .entry r :: rest) → exec .entryReport s = .next s) ∧
    ((∀ r rest, s.nuInput ≠ .port r :: rest) → exec .portReport s = .next s) ∧
    ((∀ rest, s.nuInput ≠ .sub p :: rest) → exec (.sub p) s = .next s) ∧
    ((∀ rest, s.nuInput ≠ .mark p :: rest) → exec (.mrk p) s = .next s) ∧
    ((∀ rest, s.nuInput ≠ .teardown p :: rest) → exec (.teardownNu p) s = .next s) ∧
    ((s.port p).session ≠ .teardown .store → exec (.teardownSc p) s = .next s) ∧
    ((s.port p).session ≠ .teardown .claim → exec (.teardownCu p) s = .next s) ∧
    ((s.port p).session ≠ .teardown .notify → exec (.teardownNu p) s = .next s) ∧
    ((s.port p).session ≠ .teardown .depart → exec (.departure p) s = .next s) ∧
    ((∀ q rest, (s.port p).notices ≠ .peer q :: rest) → exec (.peerNotice p) s = .next s) ∧
    ((∀ rest, (s.port p).notices ≠ .claimMove :: rest) → exec (.claimMove p) s = .next s) ∧
    ((s.port p).crossings = 0 → exec (.crossing p) s = .next s) ∧
    ((s.port p).overflowClears = 0 → exec (.overflowClear p) s = .next s)

/-! ### The command path -/

/-- R156, R157, Table 9-3, R70, R110, R135, R160: an arrival that takes the slot and stands at the first stage of its path. That the
claim check is made at the arrival is DEDUCED (log entry 9), and that notices handed before an ATT's arrival are dropped there is
DEDUCED (log entry 12). -/
def Obligations.ArrivalTakesTheSlot : Prop :=
  ∀ (s : State) (p : Port) (v : Word) (req : Request), (s.port p).slot = none → decodeRequest v (s.port p).params = req →
    ((s.port p).session = .attached ∧ (req.isConfiguration = true → s.holder = some p) ∨
      (s.port p).session = .unattached ∧ req = .att) →
    ∃ (t : State) (c : Pending), exec (.commandArrival p v) s = .next t ∧
      c.req = req ∧
      c.stage = (match req with
        | .nop | .att | .det | .rtm | .bad _ => Stage.atPort
        | .ord _ _ | .owr _ _ _ | .pub _ _ _ | .ins _ | .sub _ _ _ => Stage.translate
        | .ref _ | .cls _ | .pst | .define _ _ _ _ _ | .wdr _ | .sfr _ _ _ | .spt _ => Stage.store
        | .sgr _ _ _ _ _ _ | .rgr _ _ => Stage.access
        | .mrk => Stage.notify
        | .cla _ | .rel => Stage.claim) ∧
      c.answers = Vector.replicate 8 none ∧
      (∀ a : ApIdx, c.locals[a] =
        match req with
        | .ord mask l => if mask.getLsbD a then some l[a] else none
        | .pub mask _ _ => if mask.getLsbD a then (s.aperture p a).binding.map Binding.localNo else none
        | .owr l _ _ => if a = 0 then some l else none
        | .ins l => if a = 0 then some l else none
        | .sub l _ _ => if a = 0 then some l else none
        | _ => none) ∧
      ((s.port p).session = .attached → t.port p = { s.port p with cmdWord := v, slot := some c }) ∧
      ((s.port p).session = .unattached →
        t.port p = { s.port p with cmdWord := v, slot := some c, notices := [], crossings := 0 }) ∧
      (∀ q, q ≠ p → t.port q = s.port q) ∧
      t = State.arbitrate { s with ports := t.ports, nuInput := s.nuInput ++ (if req = .mrk then [.mark p] else []) }

/-- R156, R144, R149: an arrival that completes at once, and a write in OFFLINE. That the claim check is made at the arrival is
DEDUCED (log entry 9). -/
def Obligations.ArrivalRefusedAtThePort : Prop :=
  ∀ (s : State) (p : Port) (v : Word) (req : Request), (s.port p).slot = none → decodeRequest v (s.port p).params = req →
    ((s.port p).session = .offline → exec (.commandArrival p v) s = .next s) ∧
    ∀ st : Status,
      ((s.port p).session = .unattached ∧ req ≠ .att ∧ st = .notAttached ∨
        (∃ k, (s.port p).session = .teardown k) ∧ st = .notAttached ∨
        (s.port p).session = .attached ∧ req.isConfiguration = true ∧ s.holder ≠ some p ∧ st = .noClaim) →
      exec (.commandArrival p v) s = .next (s.setPort p { s.port p with
        cmdWord := v
        status := st
        results := Vector.replicate 10 0
        latch := (s.port p).latch ||| bitDone })

/-- R158, R165, R168: a command word that meets a PENDING slot. Which of the two rows of the command word is taken makes no
difference: the slot is looked at when the write is taken (DESIGN CHOICE, log entry 1). -/
def Obligations.OverrunLeavesThePendingCommand : Prop :=
  (∀ (s : State) (p : Port) (v : Word) (c : Pending), (s.port p).slot = some c → (s.port p).session ≠ .offline →
    exec (.commandOverrun p v) s = .next (s.setPort p { s.port p with
      cmdWord := v
      latch := (s.port p).latch ||| bitFault
      fault :=
        if (s.port p).fault.code = none then { code := some .commandOverrun, aperture := none, later := 0 }
        else { (s.port p).fault with
          later := if (s.port p).fault.later = 0xFF then 0xFF else (s.port p).fault.later + 1 } })) ∧
  ∀ (s : State) (p : Port) (v : Word), exec (.commandArrival p v) s = exec (.commandOverrun p v) s

/-- R110: the forward translations of one command, made at one event (their refusals are given by the owning block: DEDUCED, log
entry 9). -/
def Obligations.TranslationsAreMadeAtOneEvent : Prop :=
  ∀ (s : State) (p : Port) (c : Pending), s.standsAt p c .translate →
    ∃ (t : State) (c' : Pending), exec (.commandTranslation p) s = .next t ∧
      c'.req = c.req ∧ c'.locals = c.locals ∧
      c'.stage = (match c.req with | .sub _ _ _ => Stage.notify | _ => Stage.store) ∧
      (∀ a : ApIdx, c'.answers[a] =
        match c.locals[a] with
        | none => none
        | some l => translate s.grants[p] l) ∧
      t.port p = { s.port p with slot := some c' } ∧ (∀ q, q ≠ p → t.port q = s.port q) ∧
      t = State.arbitrate { s with
        ports := t.ports
        nuInput := s.nuInput ++ (match c.req with | .sub _ _ _ => [NuItem.sub p] | _ => []) }

/-- R108, R111: forward and reverse translation by the lowest-indexed grant that serves. -/
def Obligations.TranslationTakesTheLowestGrant : Prop :=
  ∀ gs : Vector Grant 8, (∀ i : Fin 8, gs[i].Ok) →
    (∀ (l : LocalNo) (e : EntryId) (r : Rights), translate gs l = some (e, r) ↔
      ∃ i : Fin 8, gs[i].enabled = true ∧ gs[i].localBase.val ≤ l.toNat ∧ l.toNat < gs[i].localBase.val + gs[i].count.val ∧
        e.val = gs[i].globalBase.val + (l.toNat - gs[i].localBase.val) ∧ r = gs[i].rights ∧
        ∀ j : Fin 8, j < i → ¬(gs[j].enabled = true ∧ gs[j].localBase.val ≤ l.toNat ∧
          l.toNat < gs[j].localBase.val + gs[j].count.val)) ∧
    (∀ (e : EntryId) (l : LocalNo), reverseTranslate gs e = some l ↔
      ∃ i : Fin 8, gs[i].enabled = true ∧ gs[i].rights.read = true ∧ gs[i].globalBase.val ≤ e.val ∧
        e.val < gs[i].globalBase.val + gs[i].count.val ∧ l.toNat = gs[i].localBase.val + (e.val - gs[i].globalBase.val) ∧
        ∀ j : Fin 8, j < i → ¬(gs[j].enabled = true ∧ gs[j].rights.read = true ∧ gs[j].globalBase.val ≤ e.val ∧
          e.val < gs[j].globalBase.val + gs[j].count.val))

/-- R159, R103: the commands that the Port Interface carries out alone. One taken after presence fell has its completion discarded
like any other (DEDUCED, log entry 10). -/
def Obligations.PortInterfaceCompletesItsOwnCommands : Prop :=
  ∀ (s : State) (p : Port) (c : Pending), s.standsAt p c .atPort →
    (c.req = .nop → exec (.nop p) s = .next (s.complete p .ok (Vector.replicate 10 0))) ∧
    ((∃ code, c.req = .bad code) → exec (.badCommand p) s = .next (s.complete p .badCommand (Vector.replicate 10 0))) ∧
    (c.req = .rtm → exec (.rtm p) s = .next (s.complete p .ok
      #v[s.timeBase.setWidth 32, (s.timeBase >>> 32).setWidth 32, 0, 0, 0, 0, 0, 0, 0, 0]))

/-! ### Sessions -/

/-- R150, R151, R152, R153, R175: ATT in UNATTACHED attaches and stays pending, and completes when it is taken again (DESIGN CHOICE,
log entry 16), as ATT does in any other session; a loss of presence in between awaits it; DET in ATTACHED begins the teardown at SC
and stays pending; one that meets a teardown begun by loss of presence has its completion discarded (DEDUCED, log entry 10). Notices
join those not yet taken (DEDUCED, log entry 17). -/
def Obligations.AttachAndDetachMoveTheSession : Prop :=
  (∀ (s : State) (p : Port) (c : Pending), s.standsAt p c .atPort → c.req = .att →
     ((s.port p).session = .unattached →
       ∃ t, exec (.att p) s = .next t ∧
         t.port p = { s.port p with session := .attached } ∧
         (∀ q, q ≠ p → t.port q = { s.port q with notices := (s.port q).notices ++ [.peer p] }) ∧
         t = { s with ports := t.ports, nuInput := s.nuInput ++ [.port (.attached p s.timeBase)] } ∧
         exec (.att p) t = .next (t.complete p .ok (Vector.replicate 10 0)) ∧
         ∃ u, exec (.presenceDeasserted p) t = .next u ∧ (u.port p).session = .teardown .await ∧ (u.port p).slot = some c ∧
           exec (.att p) u = .next (u.complete p .ok (Vector.replicate 10 0))) ∧
     ((s.port p).session ≠ .unattached → exec (.att p) s = .next (s.complete p .ok (Vector.replicate 10 0)))) ∧
  ∀ (s : State) (p : Port) (c : Pending), s.standsAt p c .atPort → c.req = .det →
    ((s.port p).session = .attached → exec (.det p) s = .next (State.arbitrate (s.setPort p { s.port p with
      session := .teardown .store
      slot := some { c with stage := .detach } }))) ∧
    ((s.port p).session ≠ .attached → exec (.det p) s = .next (s.complete p .notAttached (Vector.replicate 10 0)))

/-- R150, R153, R160: the two changes of the presence input, in every session (notices and clears of OVERFLOW on their way stay so:
DESIGN CHOICE, log entry 18). -/
def Obligations.PresenceMovesTheSession : Prop :=
  ∀ (s : State) (p : Port),
    exec (.presenceAsserted p) s = .next (s.setPort p { s.port p with
      presence := true
      session := if (s.port p).session = .offline then .unattached else (s.port p).session }) ∧
    ((s.port p).session = .unattached →
      exec (.presenceDeasserted p) s = .next (s.setPort p { PortIf.offline false with
        notices := (s.port p).notices
        crossings := (s.port p).crossings
        overflowClears := (s.port p).overflowClears })) ∧
    ((s.port p).session = .attached →
      exec (.presenceDeasserted p) s = .next (State.arbitrate (s.setPort p { s.port p with
        presence := false
        session := if (s.port p).slot = none then .teardown .store else .teardown .await }))) ∧
    ((s.port p).session ≠ .unattached → (s.port p).session ≠ .attached →
      exec (.presenceDeasserted p) s = .next (s.setPort p { s.port p with presence := false }))

/-- R11, R43, R69, R105, R107, R137, R138, R160, R166: device reset, from every state. The queue stands outside the part (DESIGN
CHOICE, log entry 1). -/
def Obligations.DeviceResetClearsEveryBlock : Prop :=
  ∀ s : State, ∃ t, exec .deviceReset s = .next t ∧
    (∀ e, t.entry e = { state := .undefined, length := 0, producer := none, generation := 0, version := 0, current := none,
                        publishTime := none, publisher := none, period := 0, grace := 0, countdown := 0, staleCount := 0 }) ∧
    (∀ b, t.buffer b = { state := .free, holds := 0 }) ∧ t.freeList.map Fin.val = List.range 384 ∧ t.threshold.val = 16 ∧
    (∀ b w, t.mem.readWord b w = 0) ∧ (∀ p a, t.aperture p a = .closed) ∧ t.lastGranted = 3 ∧ t.granted = none ∧
    t.timeBase = 0 ∧ t.phase.val = 0 ∧ t.owed = 0 ∧ t.tickWaiting = false ∧
    (∀ p i, t.grant p i = { enabled := false, localBase := 0, count := 0, globalBase := 0,
                            rights := { read := false, write := false } }) ∧
    (∀ p e, (t.subscription p e).kinds = { published := false, stale := false, withdrawn := false, defined := false } ∧
      (t.subscription p e).coalesce = false) ∧
    (∀ p, t.ring p = { records := [], seq := 0, lost := 0 }) ∧ t.nuInput = [] ∧ t.holder = none ∧ t.waiters = [] ∧
    (∀ p, t.port p =
      { session := if (s.port p).presence then .unattached else .offline, presence := (s.port p).presence, slot := none,
        cmdWord := 0, params := Vector.replicate 4 0, status := .ok, results := Vector.replicate 10 0, latch := 0, mask := 0,
        fault := { code := none, aperture := none, later := 0 }, notices := [], crossings := 0, overflowClears := 0,
        overflowRaised := false }) ∧
    (∀ p, t.interrupt p = false) ∧ t.pending = s.pending

/-- R68, R42, R153: SC's step of a teardown closes the port's eight apertures. -/
def Obligations.TeardownClosesTheApertures : Prop :=
  ∀ (s : State) (p : Port), s.PoolOk → s.granted = some (.port p) →
    (s.port p).session = .teardown .store →
    ∃ t u, exec (.teardownSc p) s = .next t ∧ s.ClosedTo p 0xFF u ∧
      t = State.arbitrate (State.setPort { u with granted := none } p { s.port p with session := .teardown .claim })

/-- R146, R143, R136, R154: the Claim Unit's and the Notification Unit's steps of a teardown. The move joins the notices not yet
taken (DEDUCED, log entry 17). -/
def Obligations.TeardownReleasesTheClaimAndClearsTheRing : Prop :=
  (∀ (s : State) (p : Port), (s.port p).session = .teardown .claim →
     (s.holder ≠ some p →
       exec (.teardownCu p) s = .next (State.setPort
         { s with waiters := s.waiters.erase p, nuInput := s.nuInput ++ [.teardown p] }
         p { s.port p with session := .teardown .notify })) ∧
     (s.holder = some p →
       ∃ t, exec (.teardownCu p) s = .next t ∧
         t.port p = { s.port p with session := .teardown .notify, notices := (s.port p).notices ++ [.claimMove] } ∧
         (∀ q, q ≠ p → t.port q = { s.port q with notices := (s.port q).notices ++ [.claimMove] }) ∧
         t = { s with
           ports := t.ports
           holder := s.waiters.head?
           waiters := s.waiters.tail
           nuInput := s.nuInput ++ [.port (.claimMoved s.waiters.head? s.timeBase), .teardown p] })) ∧
  ∀ (s : State) (p : Port) (rest : List NuItem), s.nuInput = .teardown p :: rest → (s.port p).session = .teardown .notify →
    ∃ t, exec (.teardownNu p) s = .next t ∧
      (∀ q e, t.subscription q e = if q = p then Subscription.absent else s.subscription q e) ∧
      (∀ q, t.ring q = if q = p then { records := [], seq := 0, lost := 0 } else s.ring q) ∧
      (∀ q, t.port q = if q = p then { s.port q with session := .teardown .depart } else s.port q) ∧
      t = { s with nuInput := rest, subs := t.subs, rings := t.rings, ports := t.ports }

/-- R154, R152, R150 (`overflowRaised`: log entry 6; notices: log entry 17; the clears of OVERFLOW that outlive the teardown: DESIGN
CHOICE, log entry 18): the departure step and the end of a teardown, in UNATTACHED or OFFLINE by the presence input. -/
def Obligations.DepartureEndsTheTeardown : Prop :=
  ∀ (s : State) (p : Port), (s.port p).session = .teardown .depart →
    ∃ t, exec (.departure p) s = .next t ∧
      ((s.port p).presence = true → (s.port p).slot = none →
        t.port p = { s.port p with
          session := .unattached, latch := 0, mask := 0, fault := FaultRecord.empty, overflowRaised := false }) ∧
      ((s.port p).presence = true → (s.port p).slot ≠ none →
        t.port p = { s.port p with
          session := .unattached, latch := bitDone, mask := 0, fault := FaultRecord.empty, overflowRaised := false,
          slot := none, status := .ok, results := Vector.replicate 10 0 }) ∧
      ((s.port p).presence = false →
        t.port p = { PortIf.offline false with
          notices := (s.port p).notices
          crossings := (s.port p).crossings
          overflowClears := (s.port p).overflowClears }) ∧
      (∀ q, q ≠ p → t.port q = { s.port q with notices := (s.port q).notices ++ [.peer p] }) ∧
      t = { s with ports := t.ports, nuInput := s.nuInput ++ [.port (.detached p s.timeBase)] }

/-- R39, R143, R151, R175: a notice latches its bit in ATTACHED and is discarded in every other session; peer notices and moves of
the claim are taken in the order in which they were handed, so that the CLAIM of a teardown comes ahead of its PEER (DEDUCED, log
entry 17). -/
def Obligations.NoticesLatchOnlyInAttached : Prop :=
  ∀ (s : State) (p : Port),
    (∀ q rest, (s.port p).notices = .peer q :: rest →
      exec (.claimMove p) s = .next s ∧
      exec (.peerNotice p) s = .next (s.setPort p { s.port p with
        notices := rest
        latch := if (s.port p).session = .attached then (s.port p).latch ||| bitPeer else (s.port p).latch })) ∧
    (∀ rest, (s.port p).notices = .claimMove :: rest →
      exec (.peerNotice p) s = .next s ∧
      exec (.claimMove p) s = .next (s.setPort p { s.port p with
        notices := rest
        latch := if (s.port p).session = .attached then (s.port p).latch ||| bitClaim else (s.port p).latch })) ∧
    (∀ n, (s.port p).crossings = n + 1 →
      exec (.crossing p) s = .next (s.setPort p { s.port p with
        crossings := n
        latch := if (s.port p).session = .attached then (s.port p).latch ||| bitPoolLow else (s.port p).latch }))

/-! ### The port window -/

/-- Table 10-1, R167, R168, R149: the map names every word once, and a write at an offset does what its word's row does
(WINDOW_WRITE at an offset that another row covers: DESIGN CHOICE, log entry 1). -/
def Obligations.WindowWritesFollowTheMap : Prop :=
  (∀ (x : WindowWord) (o : Offset), x.offset = some o ↔ windowWord o = x ∧ x ≠ .unused) ∧
  ∀ (s : State) (p : Port) (o : Offset) (v : Word),
    (∀ i, windowWord o = .param i → (s.port p).session ≠ .offline →
      exec (.windowWrite p o v) s = .next (s.setPort p { s.port p with params := (s.port p).params.set i v })) ∧
    ((windowWord o = .status ∨ (∃ i, windowWord o = .result i) ∨ windowWord o = .session ∨ windowWord o = .faultRecord ∨
        (∃ i, windowWord o = .head i) ∨ (∃ a i, windowWord o = .apStatus a i) ∨ windowWord o = .unused) →
      exec (.windowWrite p o v) s = .next s) ∧
    (windowWord o = .command → exec (.windowWrite p o v) s = exec (.commandArrival p v) s) ∧
    (windowWord o = .latch → exec (.windowWrite p o v) s = exec (.latchWord p v) s) ∧
    (windowWord o = .mask → exec (.windowWrite p o v) s = exec (.maskWord p v) s) ∧
    (windowWord o = .force → exec (.windowWrite p o v) s = exec (.forceWord p v) s) ∧
    (windowWord o = .take → exec (.windowWrite p o v) s = exec (.take p v) s) ∧
    ∀ a w, windowWord o = .apData a w → exec (.windowWrite p o v) s = exec (.dataWordWrite p a w v) s

/-- R149, R174: in OFFLINE every word reads 0 and every host write changes nothing. -/
def Obligations.OfflineWindowIsDead : Prop :=
  ∀ (s : State) (p : Port), (s.port p).session = .offline →
    (∀ o, s.hostRead p o = 0) ∧ s.interrupt p = false ∧
    ∀ (v : Word) (o : Offset) (a : ApIdx) (w : WordIdx),
      exec (.commandArrival p v) s = .next s ∧ exec (.commandOverrun p v) s = .next s ∧
      exec (.dataWordWrite p a w v) s = .next s ∧ exec (.latchWord p v) s = .next s ∧ exec (.maskWord p v) s = .next s ∧
      exec (.forceWord p v) s = .next s ∧ exec (.take p v) s = .next s ∧ exec (.windowWrite p o v) s = .next s

/-- R168, R169, Tables 10-2 to 10-4: a request written into the command word and the parameter words is the request read from
them, for every command, code and operand. -/
def Obligations.RequestWordsDecodeToTheirRequest : Prop :=
  ∀ r : Request, r.wellFormed = true → decodeRequest r.commandWord r.params = r

/-- R168: bits outside the positions of the arriving command do not reach the request. The positions are those of Tables 10-3 and
10-4, given here as masks. -/
def Obligations.UnusedBitsDoNotReachTheRequest : Prop :=
  ∀ (v v' : Word) (ps ps' : Params), Word.code v = Word.code v' →
    (match Cmd.ofCode (Word.code v) with
      | some .ord => v &&& 0xFF00 = v' &&& 0xFF00 ∧ ∀ i : Fin 4, ps[i] &&& 0x0FFF0FFF = ps'[i] &&& 0x0FFF0FFF
      | some .ref => v &&& 0xFF00 = v' &&& 0xFF00
      | some .cls => v &&& 0xFF00 = v' &&& 0xFF00
      | some .pub => v &&& 0x3FF00 = v' &&& 0x3FF00
      | some .cla => v &&& 0x40000 = v' &&& 0x40000
      | some .owr => ps[0] &&& 0x01070FFF = ps'[0] &&& 0x01070FFF
      | some .ins => ps[0] &&& 0xFFF = ps'[0] &&& 0xFFF
      | some .sub => ps[0] &&& 0x010F0FFF = ps'[0] &&& 0x010F0FFF
      | some .define => ps[0] = ps'[0] ∧ ps[1] = ps'[1]
      | some .wdr => ps[0] &&& 0xFFFF = ps'[0] &&& 0xFFFF
      | some .sfr => ps[0] &&& 0xFFFF = ps'[0] &&& 0xFFFF ∧ ps[1] = ps'[1]
      | some .spt => ps[0] &&& 0xFFFF = ps'[0] &&& 0xFFFF
      | some .sgr => ps[0] = ps'[0] ∧ ps[1] = ps'[1] ∧ ps[2] &&& 3 = ps'[2] &&& 3
      | some .rgr => ps[0] &&& 0xFFFF = ps'[0] &&& 0xFFFF
      | _ => True) →
    decodeRequest v ps = decodeRequest v' ps'

/-- R64, R32, R63: a host write through a writer below its length stores the word, and one at or beyond the length is
discarded without a fault. -/
def Obligations.DataWriteStoresIntoTheStagedBuffer : Prop :=
  ∀ (s : State) (p : Port) (a : ApIdx) (w : WordIdx) (v : Word) (b : Binding) (buf : BufId) (base : Version), s.mem.wf →
    (s.port p).session ≠ .offline → (s.port p).inFlight a = false →
    s.aperture p a = .writing b buf base ∨ s.aperture p a = .orphaned b buf base →
    (w.val < b.length.val →
      ∃ t, exec (.dataWordWrite p a w v) s = .next t ∧ t.mem.wf ∧
        (∀ c x, t.mem.readWord c x = if c = buf ∧ x = w then v else s.mem.readWord c x) ∧
        t.hostRead p (BitVec.ofNat 10 (0x080 + 16 * a.val + w.val)) = v ∧
        t = { s with mem := t.mem }) ∧
    (b.length.val ≤ w.val → exec (.dataWordWrite p a w v) s = .next s)

/-- R65, R66, R165: the two faults of a data write, and when a pending command closes an aperture to writes
(the interval of R66 ends with the owning block's step: DEDUCED, log entry 9). -/
def Obligations.DataWriteFaultsAreLatched : Prop :=
  ∀ (s : State) (p : Port) (a : ApIdx), (s.port p).session ≠ .offline →
    ((s.port p).inFlight a = true ↔
      ∃ c, (s.port p).slot = some c ∧
        ((∃ mask cond retain, c.req = .pub mask cond retain ∧ mask.getLsbD a = true) ∨
          ∃ mask, c.req = .cls mask ∧ mask.getLsbD a = true)) ∧
    ∀ (w : WordIdx) (v : Word) (code : FaultCode),
      ((s.port p).inFlight a = true ∧ code = .writeInFlight ∨
        (s.port p).inFlight a = false ∧ (s.aperture p a).stages = none ∧ code = .writeToRead) →
      exec (.dataWordWrite p a w v) s = .next (s.setPort p { s.port p with
        latch := (s.port p).latch ||| bitFault
        fault :=
          if (s.port p).fault.code = none then { code := some code, aperture := some a, later := 0 }
          else { (s.port p).fault with
            later := if (s.port p).fault.later = 0xFF then 0xFF else (s.port p).fault.later + 1 } })

/-- R162, R163, R167, R133: the latch, mask and force words take bits 0 to 6; the interrupt output follows the latch and the mask; a
write of the take word removes the oldest record alone. `overflowRaised` is the model's own field (DEDUCED, log entry 6). -/
def Obligations.LatchMaskForceAndTakeWords : Prop :=
  (∀ (s : State) (p : Port), (s.port p).session ≠ .offline →
     (∀ v : Word,
       exec (.latchWord p v) s = .next (s.setPort p { s.port p with
         latch := (s.port p).latch &&& ~~~(v.setWidth 7)
         fault := if v.getLsbD 6 then FaultRecord.empty else (s.port p).fault
         overflowClears := if v.getLsbD 1 then (s.port p).overflowClears + 1 else (s.port p).overflowClears
         overflowRaised := (s.port p).overflowRaised && !v.getLsbD 1 }) ∧
       exec (.maskWord p v) s = .next (s.setPort p { s.port p with mask := v.setWidth 7 }) ∧
       exec (.forceWord p v) s = .next (s.setPort p { s.port p with
         latch := (s.port p).latch ||| v.setWidth 7
         overflowRaised := (s.port p).overflowRaised && !v.getLsbD 1 })) ∧
     (s.interrupt p = true ↔ ∃ i : Fin 7, (s.port p).latch.getLsbD i = true ∧ (s.port p).mask.getLsbD i = true)) ∧
  ∀ (s : State) (p : Port) (v : Word), (s.port p).session ≠ .offline →
    exec (.take p v) s = .next (s.setRing p { s.ring p with records := (s.ring p).records.drop 1 })

/-- R46, R63, R133, R156, R167, R168, R171, R172, R173, Tables 10-1, 10-6, 10-7 and 10-8: what the host reads of every word of its
window. -/
def Obligations.WindowReadsShowTheRecords : Prop :=
  (∀ (s : State) (p : Port), (s.port p).session ≠ .offline →
     (∀ (a : ApIdx) (w : WordIdx), s.hostRead p (BitVec.ofNat 10 (0x080 + 16 * a.val + w.val)) =
       match (s.aperture p a).binding, (s.aperture p a).bufferOf with
       | some b, some buf => if w.val < b.length.val then s.mem.readWord buf w else 0
       | _, _ => 0) ∧
     (∀ (a : ApIdx) (i : Fin 4), s.hostRead p (BitVec.ofNat 10 (0x040 + 4 * a.val + i.val)) =
       match s.aperture p a, i.val with
       | .closed, _ => 0
       | .reading b _ _ t f, 0 =>
         BitVec.ofNat 32 (1 + 16 * f.updated.toNat + 32 * f.stale.toNat + 64 * f.gone.toNat + 256 * b.length.val +
           65536 * (t.toNat / 4294967296))
       | .writing b _ _, 0 => BitVec.ofNat 32 (2 + 256 * b.length.val)
       | .orphaned b _ _, 0 => BitVec.ofNat 32 (3 + 256 * b.length.val)
       | .reading b buf _ _ _, 1 => BitVec.ofNat 32 (b.localNo.toNat + 4096 * b.entry.val + 2097152 * buf.val)
       | .writing b buf _, 1 => BitVec.ofNat 32 (b.localNo.toNat + 4096 * b.entry.val + 2097152 * buf.val)
       | .orphaned b buf _, 1 => BitVec.ofNat 32 (b.localNo.toNat + 4096 * b.entry.val + 2097152 * buf.val)
       | .reading _ _ v _ _, 2 => v
       | .writing _ _ v, 2 => v
       | .orphaned _ _ v, 2 => v
       | .reading _ _ _ t _, _ => t.setWidth 32
       | _, _ => 0) ∧
     s.hostRead p 0x005 = BitVec.ofNat 32 (if (s.port p).slot = none then (s.port p).status.code.toNat else 1) ∧
     (s.ClaimOk → s.hostRead p 0x013 = BitVec.ofNat 32
       ((match (s.port p).session with | .offline => 0 | .unattached => 1 | .attached => 2 | .teardown _ => 3) +
         256 * (decide (s.holder = some p)).toNat + 65536 * (if p ∈ s.waiters then s.waiters.idxOf p + 1 else 0) +
         16777216 * p.val)) ∧
     s.hostRead p 0x014 = BitVec.ofNat 32
       ((match (s.port p).fault.code with
           | none => 0 | some .commandOverrun => 1 | some .writeToRead => 2 | some .writeInFlight => 3) +
         256 * (match (s.port p).fault.aperture with | none => 255 | some a => a.val) +
         65536 * (s.port p).fault.later.toNat)) ∧
  (∀ (s : State) (p : Port), (s.port p).session ≠ .offline →
     s.hostRead p 0x000 = (s.port p).cmdWord ∧
     (∀ i : Fin 4, s.hostRead p (BitVec.ofNat 10 (0x001 + i.val)) = (s.port p).params[i]) ∧
     (∀ i : Fin 10, s.hostRead p (BitVec.ofNat 10 (0x006 + i.val)) = (s.port p).results[i]) ∧
     s.hostRead p 0x010 = BitVec.ofNat 32 (s.port p).latch.toNat ∧
     s.hostRead p 0x011 = BitVec.ofNat 32 (s.port p).mask.toNat ∧
     s.hostRead p 0x012 = 0 ∧ s.hostRead p 0x026 = 0 ∧
     ∀ o : Offset, 0x014 < o.toNat ∧ o.toNat < 0x020 ∨ 0x026 < o.toNat ∧ o.toNat < 0x040 ∨
       0x05F < o.toNat ∧ o.toNat < 0x080 ∨ 0x0FF < o.toNat → s.hostRead p o = 0) ∧
  ∀ (s : State) (p : Port), (s.port p).session ≠ .offline →
    s.hostRead p 0x025 = BitVec.ofNat 32 (s.ring p).lost.toNat ∧
    ((s.ring p).records = [] →
      s.hostRead p 0x020 = 0 ∧ s.hostRead p 0x021 = 0 ∧ s.hostRead p 0x022 = 0 ∧ s.hostRead p 0x023 = 0 ∧
        s.hostRead p 0x024 = 0) ∧
    ∀ x rest, (s.ring p).records = x :: rest → rest.length < 64 →
      s.hostRead p 0x020 = BitVec.ofNat 32 (x.seq.toNat + 65536 *
        (match x.kind with
          | .published => 1 | .stale => 2 | .withdrawn => 3 | .defined => 4 | .portAttached => 5 | .portDetached => 6
          | .claimMoved => 7 | .mark => 8) + 16777216 * x.merged.toNat) ∧
      s.hostRead p 0x021 = BitVec.ofNat 32 ((match x.localNo with | none => 0 | some l => l.toNat) +
        65536 * (match x.origin with | none => 255 | some q => q.val) + 16777216 * (rest.length + 1)) ∧
      s.hostRead p 0x022 = x.version ∧ s.hostRead p 0x023 = x.time.setWidth 32 ∧
      s.hostRead p 0x024 = BitVec.ofNat 32 (x.time.toNat / 4294967296)

/-! ### The catalog -/

/-- R14, R3, R13, Table 1-5: an accepted DEF. -/
def Obligations.DefineMakesTheEntryEmpty : Prop :=
  ∀ (s : State) (p : Port) (c : Pending) (gid : Half) (length producer : Byte) (period grace : Half) (e : EntryId) (l : Fin 17)
    (q : Producer), s.storeTurn p c → c.req = .define gid length producer period grace → gid.toNat = e.val →
    length.toNat = l.val → 1 ≤ l.val → (∃ k : Port, producer.toNat = k.val ∧ q = .port k) ∨ producer = 4 ∧ q = .shared →
    (s.entry e).state = .undefined →
    exec (.define p) s = .next (State.complete
      { s.setEntry e { state := .empty, length := l, producer := some q, generation := (s.entry e).generation + 1, version := 0,
                       current := none, publishTime := none, publisher := none, period := period, grace := grace,
                       countdown := if period = 0 then 0 else if grace = 0 then period else grace, staleCount := 0 } with
        granted := none
        nuInput := s.nuInput ++
          [.entry { kind := .defined, entry := e, version := 0, time := s.timeBase, origin := none }] }
      p .ok #v[((s.entry e).generation + 1).setWidth 32, 0, 0, 0, 0, 0, 0, 0, 0, 0])

/-- R16, R17, R18: an accepted WDR. The entry keeps its generation alone; its current buffer is retired or freed; its readers
become GONE and its writers ORPHANED, in every port. -/
def Obligations.WithdrawRemovesTheDefinition : Prop :=
  ∀ (s : State) (p : Port) (c : Pending) (gid : Half) (e : EntryId), s.storeTurn p c → c.req = .wdr gid → gid.toNat = e.val →
    (s.entry e).state ≠ .undefined →
    ∃ u : State, exec (.wdr p) s = .next (State.complete { u with granted := none } p .ok (Vector.replicate 10 0)) ∧
      u.entry e = { state := .undefined, length := 0, producer := none, generation := (s.entry e).generation, version := 0,
                    current := none, publishTime := none, publisher := none, period := 0, grace := 0, countdown := 0,
                    staleCount := 0 } ∧
      (∀ e', e' ≠ e → u.entry e' = s.entry e') ∧
      ((s.entry e).current = none → u.buffers = s.buffers ∧ u.freeList = s.freeList) ∧
      (∀ b, (s.entry e).current = some b → (∀ b', b' ≠ b → u.buffer b' = s.buffer b') ∧
        (0 < (s.buffer b).holds →
          u.buffer b = { state := .retired, holds := (s.buffer b).holds } ∧ u.freeList = s.freeList) ∧
        ((s.buffer b).holds = 0 → u.buffer b = { state := .free, holds := 0 } ∧ u.freeList = s.freeList ++ [b])) ∧
      (∀ q a, u.aperture q a =
        match s.aperture q a with
        | .reading b buf v t f =>
          if b.entry = e ∧ b.generation = (s.entry e).generation then .reading b buf v t { f with gone := true }
          else .reading b buf v t f
        | .writing b buf v =>
          if b.entry = e ∧ b.generation = (s.entry e).generation then .orphaned b buf v else .writing b buf v
        | x => x) ∧
      u = { s with
        catalog := u.catalog
        buffers := u.buffers
        freeList := u.freeList
        apertures := u.apertures
        nuInput := s.nuInput ++ [.entry { kind := .withdrawn, entry := e, version := (s.entry e).version, time := s.timeBase,
                                          origin := none }] }

/-- R20, Table 1-5: an accepted SFR. -/
def Obligations.SetFreshnessReloadsTheCountdown : Prop :=
  ∀ (s : State) (p : Port) (c : Pending) (gid period grace : Half) (e : EntryId), s.storeTurn p c → c.req = .sfr gid period grace →
    gid.toNat = e.val → (s.entry e).state ≠ .undefined →
    exec (.sfr p) s = .next (State.complete
      { s.setEntry e { s.entry e with
          period := period
          grace := grace
          countdown :=
            match (s.entry e).state with
            | .empty => if period = 0 then 0 else if grace = 0 then period else grace
            | .current => period
            | _ => 0 } with
        granted := none }
      p .ok (Vector.replicate 10 0))

/-- R13, R16, R20, R40, R117, R118: the refusals of the configuration commands, which change nothing; SGR's is the Access
Checker's. -/
def Obligations.ConfigurationRefusalsChangeNothing : Prop :=
  ∀ (s : State) (p : Port) (c : Pending),
    (s.storeTurn p c →
      (∀ gid length producer period grace, c.req = .define gid length producer period grace →
        (512 ≤ gid.toNat ∨ length.toNat = 0 ∨ 16 < length.toNat ∨ 4 < producer.toNat →
          exec (.define p) s = .next (s.refusedWith p .badParam (Vector.replicate 10 0))) ∧
        (¬(512 ≤ gid.toNat ∨ length.toNat = 0 ∨ 16 < length.toNat ∨ 4 < producer.toNat) →
          (∃ e : EntryId, e.val = gid.toNat ∧ (s.entry e).state ≠ .undefined) →
          exec (.define p) s = .next (s.refusedWith p .alreadyDefined (Vector.replicate 10 0)))) ∧
      (∀ gid, c.req = .wdr gid →
        (512 ≤ gid.toNat → exec (.wdr p) s = .next (s.refusedWith p .badParam (Vector.replicate 10 0))) ∧
        ((∃ e : EntryId, e.val = gid.toNat ∧ (s.entry e).state = .undefined) →
          exec (.wdr p) s = .next (s.refusedWith p .undefined (Vector.replicate 10 0)))) ∧
      (∀ gid period grace, c.req = .sfr gid period grace →
        (512 ≤ gid.toNat → exec (.sfr p) s = .next (s.refusedWith p .badParam (Vector.replicate 10 0))) ∧
        ((∃ e : EntryId, e.val = gid.toNat ∧ (s.entry e).state = .undefined) →
          exec (.sfr p) s = .next (s.refusedWith p .undefined (Vector.replicate 10 0)))) ∧
      ∀ t, c.req = .spt t → 384 ≤ t.toNat →
        exec (.spt p) s = .next (s.refusedWith p .badParam (Vector.replicate 10 0))) ∧
    (s.standsAt p c .access → ∀ target index count localBase globalBase rights,
      c.req = .sgr target index count localBase globalBase rights →
      4 ≤ target.toNat ∨ 8 ≤ index.toNat ∨ 512 < count.toNat ∨
        count ≠ 0 ∧ (4095 < localBase.toNat ∨ 511 < globalBase.toNat ∨ 4096 < localBase.toNat + count.toNat ∨
          512 < globalBase.toNat + count.toNat ∨ rights = { read := false, write := false }) →
      exec (.sgr p) s = .next (s.complete p .badParam (Vector.replicate 10 0)))

/-- R22, R23, R170, Table 10-5: INS returns every field of the entry and changes nothing. SHARED reads 4 (DEDUCED, log entry
11). -/
def Obligations.InspectReturnsTheEntry : Prop :=
  ∀ (s : State) (p : Port) (c : Pending) (l : LocalNo), s.storeTurn p c → c.req = .ins l →
    (c.answers[0] = none → exec (.ins p) s = .next (s.refusedWith p .noGrant (Vector.replicate 10 0))) ∧
    (∀ e r, c.answers[0] = some (e, r) → r.read = false →
      exec (.ins p) s = .next (s.refusedWith p .noRight (Vector.replicate 10 0))) ∧
    ∀ e r, c.answers[0] = some (e, r) → r.read = true →
      exec (.ins p) s = .next (State.complete { s with granted := none } p .ok
        #v[BitVec.ofNat 32 (e.val +
             65536 * (match (s.entry e).state with | .undefined => 0 | .empty => 1 | .current => 2 | .stale => 3) +
             16777216 * (s.entry e).length.val),
           BitVec.ofNat 32 ((s.entry e).generation.toNat +
             65536 * (match (s.entry e).producer with | none => 255 | some (.port q) => q.val | some .shared => 4) +
             16777216 * (match (s.entry e).publisher with | none => 255 | some q => q.val)),
           (s.entry e).version,
           BitVec.ofNat 32 ((match (s.entry e).current with | none => 0xFFFF | some b => b.val) +
             65536 * (s.entry e).staleCount.toNat),
           (match (s.entry e).publishTime with | none => 0 | some t => t.setWidth 32),
           (match (s.entry e).publishTime with | none => 0 | some t => (t >>> 32).setWidth 32),
           BitVec.ofNat 32 ((s.entry e).period.toNat + 65536 * (s.entry e).grace.toNat),
           (s.entry e).countdown.setWidth 32, 0, 0])

/-! ### The pool -/

/-- R40, R41, R28, Table 10-5: SPT replaces the threshold; PST returns the four counts, the threshold and the head. -/
def Obligations.PoolCommandsSetAndReport : Prop :=
  ∀ (s : State) (p : Port) (c : Pending), s.storeTurn p c →
    (∀ (t : Half) (b : BufId), c.req = .spt t → t.toNat = b.val →
      exec (.spt p) s = .next (State.complete { s with threshold := b, granted := none } p .ok (Vector.replicate 10 0))) ∧
    (c.req = .pst → ∃ staged current retired : Nat,
      staged = ((List.finRange 384).countP fun b => match (s.buffer b).state with | .staged _ _ => true | _ => false) ∧
      current = ((List.finRange 384).countP fun b => match (s.buffer b).state with | .current _ => true | _ => false) ∧
      retired = ((List.finRange 384).countP fun b => decide ((s.buffer b).state = .retired)) ∧
      (s.PoolOk → s.freeList.length + staged + current + retired = 384) ∧
      exec (.pst p) s = .next (State.complete { s with granted := none } p .ok
        #v[BitVec.ofNat 32 s.freeList.length, BitVec.ofNat 32 staged, BitVec.ofNat 32 current, BitVec.ofNat 32 retired,
           BitVec.ofNat 32 s.threshold.val,
           (match s.freeList with | [] => 0xFFFF | b :: _ => BitVec.ofNat 32 b.val), 0, 0, 0, 0]))

/-! ### Apertures -/

/-- R53, R50: an accepted ORD opens every member on its entry's current buffer at one store event. -/
def Obligations.OpenReadPinsTheWholeSet : Prop :=
  ∀ (s : State) (p : Port) (c : Pending) (mask : Byte) (locals : Vector LocalNo 8), s.storeTurn p c → c.req = .ord mask locals →
    (∀ a : ApIdx, mask.getLsbD a = true → s.aperture p a = .closed ∧ ∃ e r b t, c.answers[a] = some (e, r) ∧ r.read = true ∧
      ((s.entry e).state = .current ∨ (s.entry e).state = .stale) ∧ (s.entry e).current = some b ∧
      (s.entry e).publishTime = some t) →
    ∃ u : State, exec (.ord p) s = .next (State.complete { u with granted := none } p .ok (Vector.replicate 10 0)) ∧
      (∀ (a : ApIdx) (e : EntryId) (r : Rights) (b : BufId) (t : Time), mask.getLsbD a = true → c.answers[a] = some (e, r) →
        (s.entry e).current = some b → (s.entry e).publishTime = some t →
        u.aperture p a = .reading
          { localNo := locals[a], entry := e, generation := (s.entry e).generation, length := (s.entry e).length }
          b (s.entry e).version t { updated := false, stale := decide ((s.entry e).state = .stale), gone := false }) ∧
      (∀ (q : Port) (a : ApIdx), ¬(q = p ∧ mask.getLsbD a = true) → u.aperture q a = s.aperture q a) ∧
      (∀ b, u.buffer b = { s.buffer b with
        holds := (s.buffer b).holds + countUpTo mask 7 fun a =>
          match c.answers[a] with
          | some (e, _) => decide ((s.entry e).current = some b)
          | none => false }) ∧
      u = { s with buffers := u.buffers, apertures := u.apertures }

/-- R52, R55: the first failing member of an ORD or a REF, in ascending aperture number, gives the status and its number; nothing
changes. -/
def Obligations.ReadSetRefusalsNameTheFirstFailingMember : Prop :=
  (∀ (s : State) (p : Port) (c : Pending) (mask : Byte) (locals : Vector LocalNo 8) (a : ApIdx) (st : Status), s.storeTurn p c →
     c.req = .ord mask locals → mask.getLsbD a = true →
     (∀ b : ApIdx, b < a → mask.getLsbD b = true → s.aperture p b = .closed ∧ ∃ e r, c.answers[b] = some (e, r) ∧
       r.read = true ∧ ((s.entry e).state = .current ∨ (s.entry e).state = .stale)) →
     (s.aperture p a ≠ .closed ∧ st = .apertureState ∨
       s.aperture p a = .closed ∧ c.answers[a] = none ∧ st = .noGrant ∨
       s.aperture p a = .closed ∧ (∃ e r, c.answers[a] = some (e, r) ∧
         (r.read = false ∧ st = .noRight ∨
           r.read = true ∧ (s.entry e).state = .undefined ∧ st = .undefined ∨
           r.read = true ∧ (s.entry e).state = .empty ∧ st = .empty))) →
     exec (.ord p) s = .next (s.refusedWith p st #v[BitVec.ofNat 32 a.val, 0, 0, 0, 0, 0, 0, 0, 0, 0])) ∧
  ∀ (s : State) (p : Port) (c : Pending) (mask : Byte) (a : ApIdx) (st : Status), s.storeTurn p c → c.req = .ref mask →
    mask.getLsbD a = true →
    (∀ m : ApIdx, m < a → mask.getLsbD m = true → ∃ b buf v t f, s.aperture p m = .reading b buf v t f ∧ f.gone = false ∧
      ((s.entry b.entry).state = .current ∨ (s.entry b.entry).state = .stale) ∧
      (s.entry b.entry).generation = b.generation) →
    (s.aperture p a = .closed ∧ st = .apertureState ∨
      (s.aperture p a).stages ≠ none ∧ st = .apertureState ∨
      (∃ b buf v t f, s.aperture p a = .reading b buf v t f ∧
        ((f.gone = true ∨ (s.entry b.entry).state = .undefined ∨ (s.entry b.entry).generation ≠ b.generation) ∧ st = .entryGone ∨
          f.gone = false ∧ (s.entry b.entry).state = .empty ∧ (s.entry b.entry).generation = b.generation ∧ st = .empty))) →
    exec (.ref p) s = .next (s.refusedWith p st #v[BitVec.ofNat 32 a.val, 0, 0, 0, 0, 0, 0, 0, 0, 0])

/-- R56, R50, R29, R36: an accepted REF moves every member to its entry's current buffer at one store event. -/
def Obligations.RefreshMovesTheWholeSet : Prop :=
  ∀ (s : State) (p : Port) (c : Pending) (mask : Byte), s.PoolOk → s.storeTurn p c → c.req = .ref mask →
    (∀ a : ApIdx, mask.getLsbD a = true → ∃ b buf v t f cur time, s.aperture p a = .reading b buf v t f ∧ f.gone = false ∧
      ((s.entry b.entry).state = .current ∨ (s.entry b.entry).state = .stale) ∧
      (s.entry b.entry).generation = b.generation ∧ (s.entry b.entry).current = some cur ∧
      (s.entry b.entry).publishTime = some time) →
    ∃ u : State, exec (.ref p) s = .next (State.complete { u with granted := none } p .ok (Vector.replicate 10 0)) ∧
      (∀ (a : ApIdx) b buf v t f cur time, mask.getLsbD a = true → s.aperture p a = .reading b buf v t f →
        (s.entry b.entry).current = some cur → (s.entry b.entry).publishTime = some time →
        u.aperture p a = .reading b cur (if buf = cur then v else (s.entry b.entry).version) (if buf = cur then t else time)
          { updated := false, stale := decide ((s.entry b.entry).state = .stale), gone := false }) ∧
      (∀ (q : Port) (a : ApIdx), ¬(q = p ∧ mask.getLsbD a = true) → u.aperture q a = s.aperture q a) ∧
      u.freeList = s.freeList ++ (members mask).filterMap (s.freedByRefresh p mask) ∧
      (∀ b, b ∈ (members mask).filterMap (s.freedByRefresh p mask) → u.buffer b = { state := .free, holds := 0 }) ∧
      (∀ b, b ∉ (members mask).filterMap (s.freedByRefresh p mask) → u.buffer b = { s.buffer b with
        holds := (s.buffer b).holds + (countUpTo mask 7 fun a => decide (s.joins p a = some b)) -
          countUpTo mask 7 fun a => decide (s.leaves p a = some b) }) ∧
      u = { s with buffers := u.buffers, freeList := u.freeList, apertures := u.apertures }

/-- R59, R30, R31, R32, R58: an accepted OWR opens its aperture on the head of the free list, filled by COPY or ZERO. -/
def Obligations.OpenWriteStagesAFilledBuffer : Prop :=
  ∀ (s : State) (p : Port) (c : Pending) (l : LocalNo) (a : ApIdx) (zero : Bool) (e : EntryId) (r : Rights) (buf : BufId)
    (rest : List BufId), s.mem.wf → s.storeTurn p c → c.req = .owr l a zero → s.aperture p a = .closed →
    c.answers[0] = some (e, r) → r.write = true → (s.entry e).state ≠ .undefined →
    ((s.entry e).producer = some (.port p) ∨ (s.entry e).producer = some .shared) →
    (∀ a', (s.aperture p a').stages ≠ none → (s.aperture p a').binding.map Binding.entry ≠ some e) →
    s.freeList = buf :: rest →
    ∃ u : State, exec (.owr p) s = .next (State.complete (s.endStoreEvent u) p .ok (Vector.replicate 10 0)) ∧
      u.freeList = rest ∧
      (∀ b, u.buffer b = if b = buf then { state := .staged p a, holds := 0 } else s.buffer b) ∧
      (∀ q i, u.aperture q i =
        if q = p ∧ i = a then
          .writing { localNo := l, entry := e, generation := (s.entry e).generation, length := (s.entry e).length } buf
            (s.entry e).version
        else s.aperture q i) ∧
      u.mem.wf ∧
      (∀ b w, u.mem.readWord b w =
        if b = buf then
          (match zero, (s.entry e).current with
            | false, some old => if w.val < (s.entry e).length.val then s.mem.readWord old w else 0
            | _, _ => 0)
        else s.mem.readWord b w) ∧
      u = { s with freeList := u.freeList, buffers := u.buffers, apertures := u.apertures, mem := u.mem }

/-- R58: the first check that an OWR fails gives the status; nothing changes. -/
def Obligations.OpenWriteRefusalNamesTheFirstFailedCheck : Prop :=
  ∀ (s : State) (p : Port) (c : Pending) (l : LocalNo) (a : ApIdx) (zero : Bool), s.storeTurn p c → c.req = .owr l a zero →
    (s.aperture p a ≠ .closed → exec (.owr p) s = .next (s.refusedWith p .apertureState (Vector.replicate 10 0))) ∧
    (s.aperture p a = .closed →
      (c.answers[0] = none → exec (.owr p) s = .next (s.refusedWith p .noGrant (Vector.replicate 10 0))) ∧
      ∀ e r, c.answers[0] = some (e, r) →
        (r.write = false → exec (.owr p) s = .next (s.refusedWith p .noRight (Vector.replicate 10 0))) ∧
        (r.write = true → (s.entry e).state = .undefined →
          exec (.owr p) s = .next (s.refusedWith p .undefined (Vector.replicate 10 0))) ∧
        (r.write = true → (s.entry e).state ≠ .undefined →
          ((s.entry e).producer ≠ some (.port p) ∧ (s.entry e).producer ≠ some .shared →
            exec (.owr p) s = .next (s.refusedWith p .notProducer (Vector.replicate 10 0))) ∧
          ((s.entry e).producer = some (.port p) ∨ (s.entry e).producer = some .shared →
            ((∃ a', (s.aperture p a').stages ≠ none ∧ (s.aperture p a').binding.map Binding.entry = some e) →
              exec (.owr p) s = .next (s.refusedWith p .duplicate (Vector.replicate 10 0))) ∧
            ((∀ a', (s.aperture p a').stages ≠ none → (s.aperture p a').binding.map Binding.entry ≠ some e) →
              s.freeList = [] → exec (.owr p) s = .next (s.refusedWith p .noBuffer (Vector.replicate 10 0))))))

/-- R61, R62, R35, R36, R29: CLS closes its members in ascending aperture number and is never refused. -/
def Obligations.CloseReturnsPinsAndBuffers : Prop :=
  ∀ (s : State) (p : Port) (c : Pending) (mask : Byte), s.PoolOk → s.storeTurn p c → c.req = .cls mask →
    ∃ u : State, exec (.cls p) s = .next (State.complete { u with granted := none } p .ok (Vector.replicate 10 0)) ∧
      s.ClosedTo p mask u

/-! ### Publication -/

/-- R76, R77, R78, R79, R80, R81, R33, R34, R29: an accepted PUB publishes every member at one store event. -/
def Obligations.PublishMakesTheWholeSetCurrent : Prop :=
  ∀ (s : State) (p : Port) (c : Pending) (mask : Byte) (conditional retain : Bool), s.PoolOk → s.BindingsOk → s.mem.wf →
    s.storeTurn p c → c.req = .pub mask conditional retain →
    (∀ a : ApIdx, mask.getLsbD a = true → ∃ b buf base r, s.aperture p a = .writing b buf base ∧
      c.answers[a] = some (b.entry, r) ∧ r.write = true ∧
      (conditional = true → (s.entry b.entry).version = base)) →
    (retain = true → (members mask).length ≤ s.freeList.length) →
    ∃ (u : State) (rw : Results), exec (.pub p) s = .next (State.complete (s.endStoreEvent u) p .ok rw) ∧
      (∀ (a : ApIdx) b buf base, mask.getLsbD a = true → s.aperture p a = .writing b buf base →
        u.entry b.entry = { s.entry b.entry with
          state := .current
          version := (s.entry b.entry).version + 1
          current := some buf
          publishTime := some s.timeBase
          publisher := some p
          countdown := (s.entry b.entry).period } ∧
        u.buffer buf = { state := .current b.entry, holds := 0 } ∧
        (retain = false → u.aperture p a = .closed) ∧
        (retain = true → ∃ nb, s.reopenedOn mask a = some nb ∧
          u.aperture p a = .writing b nb ((s.entry b.entry).version + 1) ∧
          u.buffer nb = { state := .staged p a, holds := 0 } ∧
          ∀ w, u.mem.readWord nb w = if w.val < b.length.val then s.mem.readWord buf w else 0) ∧
        rw[2 + a.val] = (s.entry b.entry).version + 1) ∧
      (∀ e, (∀ a : ApIdx, mask.getLsbD a = true → s.publishedBy p a ≠ some e) → u.entry e = s.entry e) ∧
      (∀ (q : Port) (a : ApIdx), ¬(q = p ∧ mask.getLsbD a = true) → u.aperture q a =
        match s.aperture q a with
        | .reading b buf v t f =>
          .reading b buf v t { f with updated := f.updated || (!f.gone &&
            decide (∃ m : ApIdx, mask.getLsbD m = true ∧ s.publishedBy p m = some b.entry)) }
        | x => x) ∧
      (∀ (a : ApIdx) old, mask.getLsbD a = true → s.replacedBy p a = some old →
        u.buffer old = if (s.buffer old).holds = 0 then { state := .free, holds := 0 }
          else { state := .retired, holds := (s.buffer old).holds }) ∧
      (∀ x, (∀ a : ApIdx, mask.getLsbD a = true → (s.aperture p a).stages ≠ some x ∧ s.replacedBy p a ≠ some x ∧
        (retain = true → s.reopenedOn mask a ≠ some x)) → u.buffer x = s.buffer x) ∧
      u.freeList = (if retain then s.freeList.drop (members mask).length else s.freeList) ++
        (members mask).filterMap (s.freedByPublish p) ∧
      (∀ x w, (∀ a : ApIdx, mask.getLsbD a = true → retain = true → s.reopenedOn mask a ≠ some x) →
        u.mem.readWord x w = s.mem.readWord x w) ∧
      u.nuInput = s.nuInput ++ (members mask).filterMap (fun a => (s.publishedBy p a).map fun e =>
        .entry { kind := .published, entry := e, version := (s.entry e).version + 1, time := s.timeBase, origin := some p }) ∧
      rw[0] = s.timeBase.setWidth 32 ∧ rw[1] = (s.timeBase >>> 32).setWidth 32 ∧
      (∀ a : ApIdx, mask.getLsbD a = false → rw[2 + a.val] = 0) ∧
      u = { s with
        catalog := u.catalog
        buffers := u.buffers
        freeList := u.freeList
        apertures := u.apertures
        mem := u.mem
        nuInput := u.nuInput }

/-- R71, R72, R74, R75 and Section 4.2: the first failing member of a PUB, or the first member without a buffer for RETAIN, gives
the status and its number; nothing changes. -/
def Obligations.PublishRefusalChangesNothing : Prop :=
  ∀ (s : State) (p : Port) (c : Pending) (mask : Byte) (conditional retain : Bool) (a : ApIdx) (st : Status),
    s.storeTurn p c → c.req = .pub mask conditional retain → mask.getLsbD a = true →
    ((∀ m : ApIdx, m < a → mask.getLsbD m = true → ∃ b buf base r, s.aperture p m = .writing b buf base ∧
        c.answers[m] = some (b.entry, r) ∧ r.write = true ∧ (s.entry b.entry).state ≠ .undefined ∧
        (s.entry b.entry).generation = b.generation ∧ (conditional = true → (s.entry b.entry).version = base)) ∧
      ((∃ b buf base, s.aperture p a = .orphaned b buf base) ∧ st = .entryGone ∨
        (s.aperture p a).stages = none ∧ st = .apertureState ∨
        ∃ b buf base, s.aperture p a = .writing b buf base ∧
          (¬(∃ r, c.answers[a] = some (b.entry, r) ∧ r.write = true) ∧ st = .revoked ∨
            (∃ r, c.answers[a] = some (b.entry, r) ∧ r.write = true) ∧
              (((s.entry b.entry).state = .undefined ∨ (s.entry b.entry).generation ≠ b.generation) ∧ st = .entryGone ∨
                (s.entry b.entry).state ≠ .undefined ∧ (s.entry b.entry).generation = b.generation ∧ conditional = true ∧
                  (s.entry b.entry).version ≠ base ∧ st = .conflict))) ∨
      retain = true ∧ st = .noBuffer ∧ countUpTo mask a (fun _ => true) = s.freeList.length + 1 ∧
        ∀ m : ApIdx, mask.getLsbD m = true → ∃ b buf base r, s.aperture p m = .writing b buf base ∧
          c.answers[m] = some (b.entry, r) ∧ r.write = true ∧ (s.entry b.entry).state ≠ .undefined ∧
          (s.entry b.entry).generation = b.generation ∧ (conditional = true → (s.entry b.entry).version = base)) →
    exec (.pub p) s = .next (s.refusedWith p st #v[BitVec.ofNat 32 a.val, 0, 0, 0, 0, 0, 0, 0, 0, 0])

/-! ### Grants -/

/-- R117, R118, R119, R106, Table 10-5: SGR replaces one grant whole, and RGR returns one. -/
def Obligations.GrantCommandsReplaceAndReturn : Prop :=
  ∀ (s : State) (p : Port) (c : Pending), s.standsAt p c .access →
    (∀ target index count localBase globalBase rights (q : Port) (i : GrantIdx),
      c.req = .sgr target index count localBase globalBase rights → target.toNat = q.val → index.toNat = i.val →
      (count = 0 → exec (.sgr p) s = .next (State.complete (s.setGrant q i
        { enabled := false, localBase := 0, count := 0, globalBase := 0, rights := { read := false, write := false } })
        p .ok (Vector.replicate 10 0))) ∧
      ∀ (lb : Fin 4096) (n : Fin 513) (gb : EntryId), localBase.toNat = lb.val → count.toNat = n.val → globalBase.toNat = gb.val →
        1 ≤ n.val → lb.val + n.val ≤ 4096 → gb.val + n.val ≤ 512 → (rights.read || rights.write) = true →
        exec (.sgr p) s = .next (State.complete (s.setGrant q i
          { enabled := true, localBase := lb, count := n, globalBase := gb, rights := rights })
          p .ok (Vector.replicate 10 0))) ∧
    ∀ target index, c.req = .rgr target index →
      (4 ≤ target.toNat ∨ 8 ≤ index.toNat → exec (.rgr p) s = .next (s.complete p .badParam (Vector.replicate 10 0))) ∧
      ∀ (q : Port) (i : GrantIdx), target.toNat = q.val → index.toNat = i.val →
        exec (.rgr p) s = .next (s.complete p .ok
          #v[BitVec.ofNat 32 ((s.grant q i).enabled.toNat + 256 * (s.grant q i).rights.read.toNat +
               512 * (s.grant q i).rights.write.toNat),
             BitVec.ofNat 32 ((s.grant q i).localBase.val + 65536 * (s.grant q i).count.val),
             BitVec.ofNat 32 (s.grant q i).globalBase.val, 0, 0, 0, 0, 0, 0, 0])

/-! ### Notification -/

/-- R122, R123: SUB at the head of the input order. -/
def Obligations.SubscribeReplacesTheSubscription : Prop :=
  ∀ (s : State) (p : Port) (c : Pending) (rest : List NuItem) (l : LocalNo) (kinds : Kinds) (coalesce : Bool),
    s.nuInput = .sub p :: rest → s.standsAt p c .notify → c.req = .sub l kinds coalesce →
    (c.answers[0] = none →
      exec (.sub p) s = .next (State.complete { s with nuInput := rest } p .noGrant (Vector.replicate 10 0))) ∧
    (∀ e r, c.answers[0] = some (e, r) → r.read = false →
      exec (.sub p) s = .next (State.complete { s with nuInput := rest } p .noRight (Vector.replicate 10 0))) ∧
    ∀ e r, c.answers[0] = some (e, r) → r.read = true →
      exec (.sub p) s = .next (State.complete
        { s.setSubscription p e
            (if kinds = { published := false, stale := false, withdrawn := false, defined := false } then
              { kinds := kinds, coalesce := false }
            else { kinds := kinds, coalesce := coalesce }) with
          nuInput := rest }
        p .ok #v[BitVec.ofNat 32 e.val, 0, 0, 0, 0, 0, 0, 0, 0, 0])

/-- R135, R128, R131: MRK at the head of the input order. `Appended` tells also of the model's mark of OVERFLOW (DEDUCED, log entry
6), and `viaCoalesce` is the model's own field (log entry 4). -/
def Obligations.MarkAppendsToItsOwnRing : Prop :=
  ∀ (s : State) (p : Port) (c : Pending) (rest : List NuItem), s.nuInput = .mark p :: rest → s.standsAt p c .notify →
    c.req = .mrk →
    ∃ u : State, exec (.mrk p) s = .next (State.complete u p .ok
        (if (s.ring p).records.length < 64 then
          #v[BitVec.ofNat 32 (1 + 65536 * (s.ring p).seq.toNat), 0, 0, 0, 0, 0, 0, 0, 0, 0]
        else Vector.replicate 10 0)) ∧
      (∃ x : Record, x.kind = .mark ∧ x.localNo = none ∧ x.version = 0 ∧ x.time = s.timeBase ∧ x.origin = some p ∧
        x.merged = 1 ∧ x.viaCoalesce = false ∧ Appended (s.ring p) (s.port p) x (u.ring p) (u.port p)) ∧
      (∀ q, q ≠ p → u.ring q = s.ring q ∧ u.port q = s.port q) ∧
      u = { s with nuInput := rest, rings := u.rings, ports := u.ports }

/-- R126, R112, R128, R129, R131: the routing of a report of an entry kind to each of the four ports. `Appended`
tells also of the model's mark of OVERFLOW (DEDUCED, log entry 6), and `viaCoalesce` is the model's own field (log entry 4). -/
def Obligations.EntryReportReachesItsCandidates : Prop :=
  ∀ (s : State) (r : EntryReport) (rest : List NuItem), s.nuInput = .entry r :: rest →
    ∃ t, exec .entryReport s = .next t ∧ t = { s with nuInput := rest, rings := t.rings, ports := t.ports } ∧
      ∀ q,
        (¬((s.port q).session = .attached ∧
            (match r.kind with
              | .published => (s.subscription q r.entry).kinds.published
              | .stale => (s.subscription q r.entry).kinds.stale
              | .withdrawn => (s.subscription q r.entry).kinds.withdrawn
              | .defined => (s.subscription q r.entry).kinds.defined) = true ∧
            reverseTranslate s.grants[q] r.entry ≠ none) → t.ring q = s.ring q ∧ t.port q = s.port q) ∧
        ∀ l, (s.port q).session = .attached →
          (match r.kind with
            | .published => (s.subscription q r.entry).kinds.published
            | .stale => (s.subscription q r.entry).kinds.stale
            | .withdrawn => (s.subscription q r.entry).kinds.withdrawn
            | .defined => (s.subscription q r.entry).kinds.defined) = true →
          reverseTranslate s.grants[q] r.entry = some l →
          (r.kind = .published → (s.subscription q r.entry).coalesce = true →
            ∀ l₁ x l₂, (s.ring q).records = l₁ ++ x :: l₂ → x.kind = .published → x.localNo = some l →
              (∀ y ∈ l₂, ¬(y.kind = .published ∧ y.localNo = some l)) →
              t.ring q = { s.ring q with records := l₁ ++ { x with
                version := r.version
                time := r.time
                origin := r.origin
                merged := if x.merged = 0xFF then 0xFF else x.merged + 1 } :: l₂ } ∧
              t.port q = { s.port q with latch := (s.port q).latch ||| bitNotify }) ∧
          (¬(r.kind = .published ∧ (s.subscription q r.entry).coalesce = true ∧
              ∃ y ∈ (s.ring q).records, y.kind = .published ∧ y.localNo = some l) →
            ∃ x : Record, x.kind = r.kind.recordKind ∧ x.localNo = some l ∧ x.version = r.version ∧ x.time = r.time ∧
              x.origin = r.origin ∧ x.merged = 1 ∧
              x.viaCoalesce = (decide (r.kind = .published) && (s.subscription q r.entry).coalesce) ∧
              Appended (s.ring q) (s.port q) x (t.ring q) (t.port q))

/-- R127, R128, R131, Table 7-1: the delivery of a report of a port or claim kind. `Appended` tells also of the model's
mark of OVERFLOW (DEDUCED, log entry 6), and `viaCoalesce` is the model's own field (log entry 4). -/
def Obligations.PortReportReachesEveryAttachedPort : Prop :=
  ∀ (s : State) (r : PortReport) (rest : List NuItem), s.nuInput = .port r :: rest →
    ∃ t, exec .portReport s = .next t ∧ t = { s with nuInput := rest, rings := t.rings, ports := t.ports } ∧
      ∀ q,
        ((s.port q).session ≠ .attached ∨ (∃ time, r = .attached q time) ∨ (∃ time, r = .detached q time) →
          t.ring q = s.ring q ∧ t.port q = s.port q) ∧
        ((s.port q).session = .attached → (∀ time, r ≠ .attached q time) → (∀ time, r ≠ .detached q time) →
          ∃ x : Record, x.localNo = none ∧ x.version = 0 ∧ x.merged = 1 ∧ x.viaCoalesce = false ∧
            (match r with
              | .attached o time => x.kind = .portAttached ∧ x.origin = some o ∧ x.time = time
              | .detached o time => x.kind = .portDetached ∧ x.origin = some o ∧ x.time = time
              | .claimMoved h time => x.kind = .claimMoved ∧ x.origin = h ∧ x.time = time) ∧
            Appended (s.ring q) (s.port q) x (t.ring q) (t.port q))

/-- R132: a clear of OVERFLOW zeroes the lost count, and with a discard it agrees in both orders (DEDUCED, log entry 6). -/
def Obligations.OverflowClearAgreesWithDiscards : Prop :=
  ∀ (s : State) (p : Port), 0 < (s.port p).overflowClears →
    exec (.overflowClear p) s = .next (State.setPort (s.setRing p { s.ring p with lost := 0 }) p { s.port p with
      overflowClears := (s.port p).overflowClears - 1
      latch := if (s.port p).overflowRaised then (s.port p).latch &&& ~~~bitOverflow else (s.port p).latch
      overflowRaised := false }) ∧
    ∀ x : Record, (s.port p).overflowClears = 1 → (s.port p).overflowRaised = false → (s.port p).hasLatch bitOverflow = false →
      64 ≤ (s.ring p).records.length →
      (∃ t, exec (.overflowClear p) (s.appendRecord p x) = .next t ∧ (t.ring p).lost = 0 ∧
        (t.port p).hasLatch bitOverflow = false) ∧
      ∃ t, exec (.overflowClear p) s = .next t ∧ ((t.appendRecord p x).ring p).lost = 1 ∧
        ((t.appendRecord p x).port p).hasLatch bitOverflow = true

/-! ### The configuration claim -/

/-- R139, R141, R142, R143, Table 8-2: CLA and REL by the port's relation to the claim. A move joins the notices not yet taken
(DEDUCED, log entry 17). -/
def Obligations.ClaimCommandsFollowTheRelation : Prop :=
  (∀ (s : State) (p : Port) (c : Pending) (wait : Bool), s.ClaimOk → s.standsAt p c .claim → c.req = .cla wait →
     (s.holder = none → ∃ u : State,
       exec (.cla p) s = .next (State.complete u p .ok #v[BitVec.ofNat 32 (p.val +
         256 * (if p ∈ s.waiters then s.waiters.idxOf p + 1 else 0)), 0, 0, 0, 0, 0, 0, 0, 0, 0]) ∧
       (∀ q, u.port q = { s.port q with notices := (s.port q).notices ++ [.claimMove] }) ∧
       u = { s with
         holder := some p
         nuInput := s.nuInput ++ [.port (.claimMoved (some p) s.timeBase)]
         ports := u.ports }) ∧
     ∀ h, s.holder = some h →
       (h = p → exec (.cla p) s = .next (s.complete p .ok #v[BitVec.ofNat 32 (h.val +
         256 * (if p ∈ s.waiters then s.waiters.idxOf p + 1 else 0)), 0, 0, 0, 0, 0, 0, 0, 0, 0])) ∧
       (h ≠ p → p ∈ s.waiters ∨ wait = false →
         exec (.cla p) s = .next (s.complete p (if wait then .queued else .claimHeld) #v[BitVec.ofNat 32 (h.val +
           256 * (if p ∈ s.waiters then s.waiters.idxOf p + 1 else 0)), 0, 0, 0, 0, 0, 0, 0, 0, 0])) ∧
       (h ≠ p → p ∉ s.waiters → wait = true →
         exec (.cla p) s = .next (State.complete { s with waiters := s.waiters ++ [p] } p .queued
           #v[BitVec.ofNat 32 (h.val + 256 * (s.waiters.length + 1)), 0, 0, 0, 0, 0, 0, 0, 0, 0]))) ∧
  ∀ (s : State) (p : Port) (c : Pending), s.standsAt p c .claim → c.req = .rel →
    (s.holder = some p → ∃ u : State,
      exec (.rel p) s = .next (State.complete u p .ok
        #v[(match s.waiters with | [] => 0xFF | q :: _ => BitVec.ofNat 32 q.val), 0, 0, 0, 0, 0, 0, 0, 0, 0]) ∧
      (∀ q, u.port q = { s.port q with notices := (s.port q).notices ++ [.claimMove] }) ∧
      u = { s with
        holder := s.waiters.head?
        waiters := s.waiters.tail
        nuInput := s.nuInput ++ [.port (.claimMoved s.waiters.head? s.timeBase)]
        ports := u.ports }) ∧
    (s.holder ≠ some p →
      exec (.rel p) s = .next (State.complete { s with waiters := s.waiters.erase p } p
        (if p ∈ s.waiters then .ok else .noClaim)
        #v[(match s.holder with | none => 0xFF | some h => BitVec.ofNat 32 h.val), 0, 0, 0, 0, 0, 0, 0, 0, 0]))

/-! ### What every step keeps -/

/-- R138, R150 to R156, R165, R166, R106: the claim, the Port Interfaces and the grants stay legal (`overflowRaised` is the model's
own field, log entry 6; that notices stay outside the OFFLINE state is the model's, log entries 17 and 18). -/
def Obligations.EveryStepKeepsClaimPortsAndGrantsLegal : Prop :=
  (∀ s t : State, s.ClaimOk → step s = .next t → t.ClaimOk) ∧
  (∀ s t : State, s.PortsOk → step s = .next t → t.PortsOk) ∧
    ∀ s t : State, s.GrantsOk → step s = .next t → t.GrantsOk

/-- R128, R130 (`viaCoalesce` is the model's own field, log entry 4): every ring stays within 64 records, with consecutive sequences
and no two coalescing records of one number. -/
def Obligations.EveryStepKeepsTheRingInvariant : Prop :=
  ∀ s t : State, (∀ p, (s.ring p).Ok) → step s = .next t → ∀ p, (t.ring p).Ok

/-- R1, R2, R9, R24, R25, R27, R28, R96: catalog, pool and Buffer Memory stay in agreement, and no expiry is lost. -/
def Obligations.EveryStepKeepsTheStoreInvariant : Prop :=
  ∀ s t : State, s.StoreOk → step s = .next t → t.StoreOk

/-- R44, R47 to R50, R58, R73: apertures stay in agreement with the entries they were opened on. -/
def Obligations.EveryStepKeepsTheBindings : Prop :=
  ∀ s t : State, s.StoreOk → s.BindingsOk → step s = .next t → t.BindingsOk

/-- R32: words at or beyond the length stay 0 in every buffer that an entry or an open aperture names. -/
def Obligations.EveryStepKeepsTheTailsZero : Prop :=
  ∀ s t : State, s.StoreOk → s.BindingsOk → s.TailsOk → step s = .next t → t.TailsOk

/-- R125, R157: what stands in the Notification Unit's input order agrees with the command slots and the teardowns. -/
def Obligations.EveryStepKeepsTheInputOrder : Prop :=
  ∀ s t : State, s.PortsOk → s.InputOk → step s = .next t → t.InputOk

/-- R26: the words of a CURRENT or RETIRED buffer never change, but for device reset. -/
def Obligations.PublishedWordsNeverChange : Prop :=
  ∀ (s t : State) (b : BufId) (w : WordIdx), s.StoreOk → step s = .next t → s.pending.head? ≠ some .deviceReset →
    (s.buffer b).state = .retired ∨ (∃ e, (s.buffer b).state = .current e) → t.mem.readWord b w = s.mem.readWord b w

/-- R3, R4, R107, R118, R121, R143: whole-machine rules on what may change a generation, a version, a grant, a subscription, the
holder and the time base (rows other than MILLISECOND_EXPIRY take no time: DESIGN CHOICE, log entry 2; a move joins the notices not
yet taken: DEDUCED, log entry 17). -/
def Obligations.OnlyTheirOwnEventsChangeThem : Prop :=
  ∀ (i : Instr) (s t : State), s.CatalogOk → exec i s = .next t → i ≠ .deviceReset →
    (∀ e, (t.entry e).generation ≠ (s.entry e).generation →
      (∃ p, i = .define p) ∧ (t.entry e).generation = (s.entry e).generation + 1 ∧ (s.entry e).state = .undefined) ∧
    (∀ e, (t.entry e).version ≠ (s.entry e).version →
      (∃ p, i = .wdr p) ∧ (t.entry e).version = 0 ∨
        (∃ p, i = .pub p ∧ (t.entry e).publisher = some p ∧ (t.entry e).publishTime = some s.timeBase)) ∧
    (t.grants ≠ s.grants → ∃ p, i = .sgr p ∧ t.nuInput = s.nuInput ∧ t.apertures = s.apertures ∧ t.subs = s.subs) ∧
    (t.subs ≠ s.subs → (∃ p, i = .sub p) ∨ ∃ p, i = .teardownNu p) ∧
    (t.holder ≠ s.holder →
      ((∃ p, i = .cla p) ∨ (∃ p, i = .rel p) ∨ ∃ p, i = .teardownCu p) ∧
        .port (.claimMoved t.holder s.timeBase) ∈ t.nuInput ∧
        ∀ q, (t.port q).notices = (s.port q).notices ++ [.claimMove]) ∧
    (t.timeBase ≠ s.timeBase → i = .millisecondExpiry)

/-- R11, R43, R69, R107, R137, R138, R166: the state after reset satisfies every invariant above (its presence
inputs are deasserted: DESIGN CHOICE, log entry 5). -/
def Obligations.ResetSatisfiesEveryInvariant : Prop :=
  State.reset.ClaimOk ∧ (∀ p, (State.reset.ring p).Ok) ∧ State.reset.StoreOk ∧ State.reset.BindingsOk ∧ State.reset.TailsOk ∧
    State.reset.PortsOk ∧ State.reset.GrantsOk ∧ State.reset.InputOk ∧ State.reset.ArbiterOk

/-- R160, R94, R153: the store is idle only while nobody waits for it, and is granted only to one that waits for it (that a grant
stands until its row is taken is DESIGN CHOICE, log entry 8). -/
def Obligations.EveryStepKeepsTheArbiter : Prop :=
  ∀ s t : State, s.PortsOk → s.ArbiterOk → step s = .next t → t.ArbiterOk
end

