-- ==== Sys2Proof/Laws/Memory.lean ====
section
/-! SUPPORT. The Buffer Memory's laws: what a cell and a word read after a write or a fill, and that every write keeps the
canonical form. -/

namespace Sys2Proof.Machine

/-! ### Cells -/

/-- A cell below every listed key is unlisted. -/
theorem Memory.read_of_lt (m : Memory) (k : Nat) (h : ∀ c ∈ m, k < c.1) : m.read k = 0 := by
  induction m with
  | nil => rfl
  | cons c t ih =>
    have hc := h c List.mem_cons_self
    rw [Memory.read, if_neg (by omega)]
    exact ih fun d hd => h d (List.mem_cons_of_mem c hd)

/-- In the canonical form a cell reads the value last written to it. -/
theorem Memory.read_write_same (m : Memory) (hm : m.wf) (k : Nat) (v : Byte) : (m.write k v).read k = v := by
  induction m with
  | nil => unfold Memory.write; split <;> simp_all [Memory.read]
  | cons c t ih =>
    have ht : Memory.wf t := ⟨(List.pairwise_cons.mp hm.1).2, fun d hd => hm.2 d (List.mem_cons_of_mem c hd)⟩
    have hlt : ∀ d ∈ t, c.1 < d.1 := (List.pairwise_cons.mp hm.1).1
    unfold Memory.write
    split_ifs with h1 h2 h3 h4
    · rw [h2]
      refine Memory.read_of_lt _ _ fun d hd => ?_
      rcases List.mem_cons.mp hd with rfl | hd
      · exact h1
      · exact Nat.lt_trans h1 (hlt d hd)
    · simp [Memory.read]
    · rw [h4]
      exact Memory.read_of_lt _ _ fun d hd => by have := hlt d hd; omega
    · simp [Memory.read]
    · rw [Memory.read, if_neg (by omega)]
      exact ih ht

/-- A write leaves every other cell as it was. -/
theorem Memory.read_write_ne (m : Memory) (k : Nat) (v : Byte) (j : Nat) (hj : j ≠ k) :
    (m.write k v).read j = m.read j := by
  induction m with
  | nil => unfold Memory.write; split <;> simp [Memory.read, Ne.symm hj]
  | cons c t ih =>
    unfold Memory.write
    split_ifs with h1 h2 h3 h4
    · rfl
    · rw [Memory.read, if_neg (Ne.symm hj)]
    · conv_rhs => rw [Memory.read, if_neg (by omega)]
    · rw [Memory.read, if_neg (Ne.symm hj)]
      conv_rhs => rw [Memory.read, if_neg (by omega)]
    · simp only [Memory.read, ih]

/-- What a cell reads after a write. -/
theorem Memory.read_write (m : Memory) (hm : m.wf) (k : Nat) (v : Byte) (j : Nat) :
    (m.write k v).read j = if j = k then v else m.read j := by
  by_cases hj : j = k
  · rw [if_pos hj, hj, Memory.read_write_same m hm]
  · rw [if_neg hj, Memory.read_write_ne m k v j hj]

/-- The keys of a written memory. -/
theorem Memory.mem_write (m : Memory) (k : Nat) (v : Byte) (d : Host.Cell) (h : d ∈ m.write k v) :
    d ∈ m ∨ (d = (k, v) ∧ v ≠ 0) := by
  induction m with
  | nil => unfold Memory.write at h; split_ifs at h <;> simp_all
  | cons c t ih => unfold Memory.write at h; split_ifs at h <;> simp_all <;> tauto

/-- A write keeps the canonical form. -/
theorem Memory.write_wf (m : Memory) (hm : m.wf) (k : Nat) (v : Byte) : (m.write k v).wf := by
  refine ⟨?_, fun d hd => ?_⟩
  · induction m with
    | nil => unfold Memory.write; split_ifs <;> simp
    | cons c t ih =>
      have ht : Memory.wf t := ⟨(List.pairwise_cons.mp hm.1).2, fun d hd => hm.2 d (List.mem_cons_of_mem c hd)⟩
      have hlt : ∀ d ∈ t, c.1 < d.1 := (List.pairwise_cons.mp hm.1).1
      unfold Memory.write
      split_ifs with h1 h2 h3 h4
      · exact hm.1
      · refine List.pairwise_cons.mpr ⟨fun d hd => ?_, hm.1⟩
        rcases List.mem_cons.mp hd with rfl | hd
        · exact h1
        · exact Nat.lt_trans h1 (hlt d hd)
      · exact ht.1
      · exact List.pairwise_cons.mpr ⟨fun d hd => by have := hlt d hd; omega, ht.1⟩
      · refine List.pairwise_cons.mpr ⟨fun d hd => ?_, ih ht⟩
        rcases Memory.mem_write t k v d hd with hd | ⟨rfl, -⟩
        · exact hlt d hd
        · simp only; omega
  · rcases Memory.mem_write m k v d hd with hd | ⟨rfl, hv⟩
    · exact hm.2 d hd
    · exact hv

/-! ### Words -/

/-- The four bytes of a word make the word. -/
theorem bytes_of_word (v : Word) :
    v.extractLsb' 24 8 ++ v.extractLsb' 16 8 ++ v.extractLsb' 8 8 ++ v.extractLsb' 0 8 = v := by
  apply BitVec.eq_of_getLsbD_eq
  intro i hi
  simp only [BitVec.getLsbD_append, BitVec.getLsbD_extractLsb']
  split_ifs with h1 h2 h3
  · simp [h1]
  · have : i - 8 < 8 := h2
    simp [this, show 8 + (i - 8) = i by omega]
  · have : i - 8 - 8 < 8 := h3
    simp [this, show 16 + (i - 8 - 8) = i by omega]
  · have : i - 8 - 8 - 8 < 8 := by omega
    simp [this, show 24 + (i - 8 - 8 - 8) = i by omega]

/-- Writing a word keeps the canonical form. -/
theorem Memory.writeWord_wf (m : Memory) (hm : m.wf) (b : BufId) (w : WordIdx) (v : Word) : (m.writeWord b w v).wf :=
  Memory.write_wf _ (Memory.write_wf _ (Memory.write_wf _ (Memory.write_wf _ hm _ _) _ _) _ _) _ _

/-- A cell after a word is written. -/
theorem Memory.read_writeWord (m : Memory) (hm : m.wf) (b : BufId) (w : WordIdx) (v : Word) (j : Nat) :
    (m.writeWord b w v).read j =
      if j = cellKey b w + 3 then v.extractLsb' 24 8
      else if j = cellKey b w + 2 then v.extractLsb' 16 8
      else if j = cellKey b w + 1 then v.extractLsb' 8 8
      else if j = cellKey b w then v.extractLsb' 0 8
      else m.read j := by
  have h1 := Memory.write_wf m hm (cellKey b w) (v.extractLsb' 0 8)
  have h2 := Memory.write_wf _ h1 (cellKey b w + 1) (v.extractLsb' 8 8)
  have h3 := Memory.write_wf _ h2 (cellKey b w + 2) (v.extractLsb' 16 8)
  simp only [Memory.writeWord, Memory.read_write _ h3, Memory.read_write _ h2, Memory.read_write _ h1,
    Memory.read_write _ hm]

/-- Different words have no key in common. -/
theorem cellKey_ne (b c : BufId) (w x : WordIdx) (h : ¬(c = b ∧ x = w)) (i j : Nat) (hi : i < 4) (hj : j < 4) :
    cellKey c x + i ≠ cellKey b w + j := by
  unfold cellKey
  intro h'
  exact h ⟨Fin.ext (by omega), Fin.ext (by omega)⟩

/-- A word reads the value last written to it, and every other word what it read before (R24). -/
theorem Memory.readWord_writeWord (m : Memory) (hm : m.wf) (b : BufId) (w : WordIdx) (v : Word) (c : BufId) (x : WordIdx) :
    (m.writeWord b w v).readWord c x = if c = b ∧ x = w then v else m.readWord c x := by
  by_cases h : c = b ∧ x = w
  · obtain ⟨rfl, rfl⟩ := h
    simp only [Memory.readWord, Memory.read_writeWord m hm, and_self, if_true]
    simp only [show cellKey c x + 2 ≠ cellKey c x + 3 by omega, show cellKey c x + 1 ≠ cellKey c x + 3 by omega,
      show cellKey c x + 1 ≠ cellKey c x + 2 by omega, show cellKey c x ≠ cellKey c x + 3 by omega,
      show cellKey c x ≠ cellKey c x + 2 by omega, show cellKey c x ≠ cellKey c x + 1 by omega, if_false]
    exact bytes_of_word v
  · rw [if_neg h]
    simp only [Memory.readWord, Memory.read_writeWord m hm]
    have key := fun i j hi hj => cellKey_ne b c w x h i j hi hj
    have k0 := fun j hj => key 0 j (by omega) hj
    simp only [Nat.add_zero] at k0
    have kj0 := fun i hi => key i 0 hi (by omega)
    simp only [Nat.add_zero] at kj0
    have k00 := key 0 0 (by omega) (by omega)
    simp only [Nat.add_zero] at k00
    simp only [key 3 3 (by omega) (by omega), key 3 2 (by omega) (by omega), key 3 1 (by omega) (by omega), kj0 3 (by omega),
      key 2 3 (by omega) (by omega), key 2 2 (by omega) (by omega), key 2 1 (by omega) (by omega), kj0 2 (by omega),
      key 1 3 (by omega) (by omega), key 1 2 (by omega) (by omega), key 1 1 (by omega) (by omega), kj0 1 (by omega),
      k0 3 (by omega), k0 2 (by omega), k0 1 (by omega), k00, if_false]

/-! ### Fills -/

/-- The memory after the words of a list are written into a buffer: what it reads, and that it is canonical. -/
theorem Memory.readWord_foldl_writeWord (l : List WordIdx) (f : WordIdx → Word) (b : BufId) (m : Memory) (hm : m.wf) :
    (l.foldl (fun m w => m.writeWord b w (f w)) m).wf ∧
      ∀ c x, (l.foldl (fun m w => m.writeWord b w (f w)) m).readWord c x =
        if c = b ∧ x ∈ l then f x else m.readWord c x := by
  induction l generalizing m with
  | nil => exact ⟨hm, fun c x => by simp⟩
  | cons w t ih =>
    obtain ⟨h1, h2⟩ := ih (m.writeWord b w (f w)) (Memory.writeWord_wf m hm b w (f w))
    refine ⟨h1, fun c x => ?_⟩
    simp only [List.foldl_cons, h2, Memory.readWord_writeWord m hm]
    by_cases hc : c = b <;> by_cases hx : x ∈ t <;> by_cases hw : x = w <;> simp_all

/-- A fill keeps the canonical form. -/
theorem Memory.fill_wf (m : Memory) (hm : m.wf) (b : BufId) (f : WordIdx → Word) : (m.fill b f).wf :=
  (Memory.readWord_foldl_writeWord (List.finRange 16) f b m hm).1

/-- After a fill every word of the buffer is the word given, and the words of every other buffer are as before (R30). -/
theorem Memory.readWord_fill (m : Memory) (hm : m.wf) (b : BufId) (f : WordIdx → Word) (c : BufId) (x : WordIdx) :
    (m.fill b f).readWord c x = if c = b then f x else m.readWord c x := by
  have := (Memory.readWord_foldl_writeWord (List.finRange 16) f b m hm).2 c x
  simpa [Memory.fill] using this

/-- The memory after device reset has the canonical form, and every word is 0 (R43). -/
theorem Memory.nil_wf : Memory.wf [] := ⟨List.Pairwise.nil, fun _ h => nomatch h⟩

theorem Memory.readWord_nil (b : BufId) (w : WordIdx) : Memory.readWord [] b w = 0 := by
  simp [Memory.readWord, Memory.read]

end Sys2Proof.Machine
end

