-- ==== Sys2Proof/Laws/State.lean ====
section
/-! SUPPORT. For each update of one record or field: what every field and every accessor reads after it. -/

namespace Sys2Proof.Machine

variable (s : State)

/-! ### setEntry -/

@[simp] theorem State.setEntry_buffers (k : EntryId) (x : Entry) : (s.setEntry k x).buffers = s.buffers := rfl
@[simp] theorem State.setEntry_freeList (k : EntryId) (x : Entry) : (s.setEntry k x).freeList = s.freeList := rfl
@[simp] theorem State.setEntry_threshold (k : EntryId) (x : Entry) : (s.setEntry k x).threshold = s.threshold := rfl
@[simp] theorem State.setEntry_apertures (k : EntryId) (x : Entry) : (s.setEntry k x).apertures = s.apertures := rfl
@[simp] theorem State.setEntry_lastGranted (k : EntryId) (x : Entry) : (s.setEntry k x).lastGranted = s.lastGranted := rfl
@[simp] theorem State.setEntry_granted (k : EntryId) (x : Entry) : (s.setEntry k x).granted = s.granted := rfl
@[simp] theorem State.setEntry_mem (k : EntryId) (x : Entry) : (s.setEntry k x).mem = s.mem := rfl
@[simp] theorem State.setEntry_timeBase (k : EntryId) (x : Entry) : (s.setEntry k x).timeBase = s.timeBase := rfl
@[simp] theorem State.setEntry_phase (k : EntryId) (x : Entry) : (s.setEntry k x).phase = s.phase := rfl
@[simp] theorem State.setEntry_owed (k : EntryId) (x : Entry) : (s.setEntry k x).owed = s.owed := rfl
@[simp] theorem State.setEntry_tickWaiting (k : EntryId) (x : Entry) : (s.setEntry k x).tickWaiting = s.tickWaiting := rfl
@[simp] theorem State.setEntry_grants (k : EntryId) (x : Entry) : (s.setEntry k x).grants = s.grants := rfl
@[simp] theorem State.setEntry_subs (k : EntryId) (x : Entry) : (s.setEntry k x).subs = s.subs := rfl
@[simp] theorem State.setEntry_rings (k : EntryId) (x : Entry) : (s.setEntry k x).rings = s.rings := rfl
@[simp] theorem State.setEntry_nuInput (k : EntryId) (x : Entry) : (s.setEntry k x).nuInput = s.nuInput := rfl
@[simp] theorem State.setEntry_holder (k : EntryId) (x : Entry) : (s.setEntry k x).holder = s.holder := rfl
@[simp] theorem State.setEntry_waiters (k : EntryId) (x : Entry) : (s.setEntry k x).waiters = s.waiters := rfl
@[simp] theorem State.setEntry_ports (k : EntryId) (x : Entry) : (s.setEntry k x).ports = s.ports := rfl
@[simp] theorem State.setEntry_pending (k : EntryId) (x : Entry) : (s.setEntry k x).pending = s.pending := rfl
@[simp] theorem State.setEntry_buffer (k : EntryId) (x : Entry) (b : BufId) : (s.setEntry k x).buffer b = s.buffer b := rfl
@[simp] theorem State.setEntry_aperture (k : EntryId) (x : Entry) (q : Port) (a : ApIdx) : (s.setEntry k x).aperture q a = s.aperture q a := rfl
@[simp] theorem State.setEntry_grant (k : EntryId) (x : Entry) (q : Port) (i : GrantIdx) : (s.setEntry k x).grant q i = s.grant q i := rfl
@[simp] theorem State.setEntry_subscription (k : EntryId) (x : Entry) (q : Port) (e : EntryId) : (s.setEntry k x).subscription q e = s.subscription q e := rfl
@[simp] theorem State.setEntry_ring (k : EntryId) (x : Entry) (q : Port) : (s.setEntry k x).ring q = s.ring q := rfl
@[simp] theorem State.setEntry_port (k : EntryId) (x : Entry) (q : Port) : (s.setEntry k x).port q = s.port q := rfl

/-! ### setBuffer -/

@[simp] theorem State.setBuffer_catalog (k : BufId) (x : BufRec) : (s.setBuffer k x).catalog = s.catalog := rfl
@[simp] theorem State.setBuffer_freeList (k : BufId) (x : BufRec) : (s.setBuffer k x).freeList = s.freeList := rfl
@[simp] theorem State.setBuffer_threshold (k : BufId) (x : BufRec) : (s.setBuffer k x).threshold = s.threshold := rfl
@[simp] theorem State.setBuffer_apertures (k : BufId) (x : BufRec) : (s.setBuffer k x).apertures = s.apertures := rfl
@[simp] theorem State.setBuffer_lastGranted (k : BufId) (x : BufRec) : (s.setBuffer k x).lastGranted = s.lastGranted := rfl
@[simp] theorem State.setBuffer_granted (k : BufId) (x : BufRec) : (s.setBuffer k x).granted = s.granted := rfl
@[simp] theorem State.setBuffer_mem (k : BufId) (x : BufRec) : (s.setBuffer k x).mem = s.mem := rfl
@[simp] theorem State.setBuffer_timeBase (k : BufId) (x : BufRec) : (s.setBuffer k x).timeBase = s.timeBase := rfl
@[simp] theorem State.setBuffer_phase (k : BufId) (x : BufRec) : (s.setBuffer k x).phase = s.phase := rfl
@[simp] theorem State.setBuffer_owed (k : BufId) (x : BufRec) : (s.setBuffer k x).owed = s.owed := rfl
@[simp] theorem State.setBuffer_tickWaiting (k : BufId) (x : BufRec) : (s.setBuffer k x).tickWaiting = s.tickWaiting := rfl
@[simp] theorem State.setBuffer_grants (k : BufId) (x : BufRec) : (s.setBuffer k x).grants = s.grants := rfl
@[simp] theorem State.setBuffer_subs (k : BufId) (x : BufRec) : (s.setBuffer k x).subs = s.subs := rfl
@[simp] theorem State.setBuffer_rings (k : BufId) (x : BufRec) : (s.setBuffer k x).rings = s.rings := rfl
@[simp] theorem State.setBuffer_nuInput (k : BufId) (x : BufRec) : (s.setBuffer k x).nuInput = s.nuInput := rfl
@[simp] theorem State.setBuffer_holder (k : BufId) (x : BufRec) : (s.setBuffer k x).holder = s.holder := rfl
@[simp] theorem State.setBuffer_waiters (k : BufId) (x : BufRec) : (s.setBuffer k x).waiters = s.waiters := rfl
@[simp] theorem State.setBuffer_ports (k : BufId) (x : BufRec) : (s.setBuffer k x).ports = s.ports := rfl
@[simp] theorem State.setBuffer_pending (k : BufId) (x : BufRec) : (s.setBuffer k x).pending = s.pending := rfl
@[simp] theorem State.setBuffer_entry (k : BufId) (x : BufRec) (e : EntryId) : (s.setBuffer k x).entry e = s.entry e := rfl
@[simp] theorem State.setBuffer_aperture (k : BufId) (x : BufRec) (q : Port) (a : ApIdx) : (s.setBuffer k x).aperture q a = s.aperture q a := rfl
@[simp] theorem State.setBuffer_grant (k : BufId) (x : BufRec) (q : Port) (i : GrantIdx) : (s.setBuffer k x).grant q i = s.grant q i := rfl
@[simp] theorem State.setBuffer_subscription (k : BufId) (x : BufRec) (q : Port) (e : EntryId) : (s.setBuffer k x).subscription q e = s.subscription q e := rfl
@[simp] theorem State.setBuffer_ring (k : BufId) (x : BufRec) (q : Port) : (s.setBuffer k x).ring q = s.ring q := rfl
@[simp] theorem State.setBuffer_port (k : BufId) (x : BufRec) (q : Port) : (s.setBuffer k x).port q = s.port q := rfl

/-! ### setAperture -/

@[simp] theorem State.setAperture_catalog (k : Port) (l : ApIdx) (x : Aperture) : (s.setAperture k l x).catalog = s.catalog := rfl
@[simp] theorem State.setAperture_buffers (k : Port) (l : ApIdx) (x : Aperture) : (s.setAperture k l x).buffers = s.buffers := rfl
@[simp] theorem State.setAperture_freeList (k : Port) (l : ApIdx) (x : Aperture) : (s.setAperture k l x).freeList = s.freeList := rfl
@[simp] theorem State.setAperture_threshold (k : Port) (l : ApIdx) (x : Aperture) : (s.setAperture k l x).threshold = s.threshold := rfl
@[simp] theorem State.setAperture_lastGranted (k : Port) (l : ApIdx) (x : Aperture) : (s.setAperture k l x).lastGranted = s.lastGranted := rfl
@[simp] theorem State.setAperture_granted (k : Port) (l : ApIdx) (x : Aperture) : (s.setAperture k l x).granted = s.granted := rfl
@[simp] theorem State.setAperture_mem (k : Port) (l : ApIdx) (x : Aperture) : (s.setAperture k l x).mem = s.mem := rfl
@[simp] theorem State.setAperture_timeBase (k : Port) (l : ApIdx) (x : Aperture) : (s.setAperture k l x).timeBase = s.timeBase := rfl
@[simp] theorem State.setAperture_phase (k : Port) (l : ApIdx) (x : Aperture) : (s.setAperture k l x).phase = s.phase := rfl
@[simp] theorem State.setAperture_owed (k : Port) (l : ApIdx) (x : Aperture) : (s.setAperture k l x).owed = s.owed := rfl
@[simp] theorem State.setAperture_tickWaiting (k : Port) (l : ApIdx) (x : Aperture) : (s.setAperture k l x).tickWaiting = s.tickWaiting := rfl
@[simp] theorem State.setAperture_grants (k : Port) (l : ApIdx) (x : Aperture) : (s.setAperture k l x).grants = s.grants := rfl
@[simp] theorem State.setAperture_subs (k : Port) (l : ApIdx) (x : Aperture) : (s.setAperture k l x).subs = s.subs := rfl
@[simp] theorem State.setAperture_rings (k : Port) (l : ApIdx) (x : Aperture) : (s.setAperture k l x).rings = s.rings := rfl
@[simp] theorem State.setAperture_nuInput (k : Port) (l : ApIdx) (x : Aperture) : (s.setAperture k l x).nuInput = s.nuInput := rfl
@[simp] theorem State.setAperture_holder (k : Port) (l : ApIdx) (x : Aperture) : (s.setAperture k l x).holder = s.holder := rfl
@[simp] theorem State.setAperture_waiters (k : Port) (l : ApIdx) (x : Aperture) : (s.setAperture k l x).waiters = s.waiters := rfl
@[simp] theorem State.setAperture_ports (k : Port) (l : ApIdx) (x : Aperture) : (s.setAperture k l x).ports = s.ports := rfl
@[simp] theorem State.setAperture_pending (k : Port) (l : ApIdx) (x : Aperture) : (s.setAperture k l x).pending = s.pending := rfl
@[simp] theorem State.setAperture_entry (k : Port) (l : ApIdx) (x : Aperture) (e : EntryId) : (s.setAperture k l x).entry e = s.entry e := rfl
@[simp] theorem State.setAperture_buffer (k : Port) (l : ApIdx) (x : Aperture) (b : BufId) : (s.setAperture k l x).buffer b = s.buffer b := rfl
@[simp] theorem State.setAperture_grant (k : Port) (l : ApIdx) (x : Aperture) (q : Port) (i : GrantIdx) : (s.setAperture k l x).grant q i = s.grant q i := rfl
@[simp] theorem State.setAperture_subscription (k : Port) (l : ApIdx) (x : Aperture) (q : Port) (e : EntryId) : (s.setAperture k l x).subscription q e = s.subscription q e := rfl
@[simp] theorem State.setAperture_ring (k : Port) (l : ApIdx) (x : Aperture) (q : Port) : (s.setAperture k l x).ring q = s.ring q := rfl
@[simp] theorem State.setAperture_port (k : Port) (l : ApIdx) (x : Aperture) (q : Port) : (s.setAperture k l x).port q = s.port q := rfl

/-! ### setGrant -/

@[simp] theorem State.setGrant_catalog (k : Port) (l : GrantIdx) (x : Grant) : (s.setGrant k l x).catalog = s.catalog := rfl
@[simp] theorem State.setGrant_buffers (k : Port) (l : GrantIdx) (x : Grant) : (s.setGrant k l x).buffers = s.buffers := rfl
@[simp] theorem State.setGrant_freeList (k : Port) (l : GrantIdx) (x : Grant) : (s.setGrant k l x).freeList = s.freeList := rfl
@[simp] theorem State.setGrant_threshold (k : Port) (l : GrantIdx) (x : Grant) : (s.setGrant k l x).threshold = s.threshold := rfl
@[simp] theorem State.setGrant_apertures (k : Port) (l : GrantIdx) (x : Grant) : (s.setGrant k l x).apertures = s.apertures := rfl
@[simp] theorem State.setGrant_lastGranted (k : Port) (l : GrantIdx) (x : Grant) : (s.setGrant k l x).lastGranted = s.lastGranted := rfl
@[simp] theorem State.setGrant_granted (k : Port) (l : GrantIdx) (x : Grant) : (s.setGrant k l x).granted = s.granted := rfl
@[simp] theorem State.setGrant_mem (k : Port) (l : GrantIdx) (x : Grant) : (s.setGrant k l x).mem = s.mem := rfl
@[simp] theorem State.setGrant_timeBase (k : Port) (l : GrantIdx) (x : Grant) : (s.setGrant k l x).timeBase = s.timeBase := rfl
@[simp] theorem State.setGrant_phase (k : Port) (l : GrantIdx) (x : Grant) : (s.setGrant k l x).phase = s.phase := rfl
@[simp] theorem State.setGrant_owed (k : Port) (l : GrantIdx) (x : Grant) : (s.setGrant k l x).owed = s.owed := rfl
@[simp] theorem State.setGrant_tickWaiting (k : Port) (l : GrantIdx) (x : Grant) : (s.setGrant k l x).tickWaiting = s.tickWaiting := rfl
@[simp] theorem State.setGrant_subs (k : Port) (l : GrantIdx) (x : Grant) : (s.setGrant k l x).subs = s.subs := rfl
@[simp] theorem State.setGrant_rings (k : Port) (l : GrantIdx) (x : Grant) : (s.setGrant k l x).rings = s.rings := rfl
@[simp] theorem State.setGrant_nuInput (k : Port) (l : GrantIdx) (x : Grant) : (s.setGrant k l x).nuInput = s.nuInput := rfl
@[simp] theorem State.setGrant_holder (k : Port) (l : GrantIdx) (x : Grant) : (s.setGrant k l x).holder = s.holder := rfl
@[simp] theorem State.setGrant_waiters (k : Port) (l : GrantIdx) (x : Grant) : (s.setGrant k l x).waiters = s.waiters := rfl
@[simp] theorem State.setGrant_ports (k : Port) (l : GrantIdx) (x : Grant) : (s.setGrant k l x).ports = s.ports := rfl
@[simp] theorem State.setGrant_pending (k : Port) (l : GrantIdx) (x : Grant) : (s.setGrant k l x).pending = s.pending := rfl
@[simp] theorem State.setGrant_entry (k : Port) (l : GrantIdx) (x : Grant) (e : EntryId) : (s.setGrant k l x).entry e = s.entry e := rfl
@[simp] theorem State.setGrant_buffer (k : Port) (l : GrantIdx) (x : Grant) (b : BufId) : (s.setGrant k l x).buffer b = s.buffer b := rfl
@[simp] theorem State.setGrant_aperture (k : Port) (l : GrantIdx) (x : Grant) (q : Port) (a : ApIdx) : (s.setGrant k l x).aperture q a = s.aperture q a := rfl
@[simp] theorem State.setGrant_subscription (k : Port) (l : GrantIdx) (x : Grant) (q : Port) (e : EntryId) : (s.setGrant k l x).subscription q e = s.subscription q e := rfl
@[simp] theorem State.setGrant_ring (k : Port) (l : GrantIdx) (x : Grant) (q : Port) : (s.setGrant k l x).ring q = s.ring q := rfl
@[simp] theorem State.setGrant_port (k : Port) (l : GrantIdx) (x : Grant) (q : Port) : (s.setGrant k l x).port q = s.port q := rfl

/-! ### setSubscription -/

@[simp] theorem State.setSubscription_catalog (k : Port) (l : EntryId) (x : Subscription) : (s.setSubscription k l x).catalog = s.catalog := rfl
@[simp] theorem State.setSubscription_buffers (k : Port) (l : EntryId) (x : Subscription) : (s.setSubscription k l x).buffers = s.buffers := rfl
@[simp] theorem State.setSubscription_freeList (k : Port) (l : EntryId) (x : Subscription) : (s.setSubscription k l x).freeList = s.freeList := rfl
@[simp] theorem State.setSubscription_threshold (k : Port) (l : EntryId) (x : Subscription) : (s.setSubscription k l x).threshold = s.threshold := rfl
@[simp] theorem State.setSubscription_apertures (k : Port) (l : EntryId) (x : Subscription) : (s.setSubscription k l x).apertures = s.apertures := rfl
@[simp] theorem State.setSubscription_lastGranted (k : Port) (l : EntryId) (x : Subscription) : (s.setSubscription k l x).lastGranted = s.lastGranted := rfl
@[simp] theorem State.setSubscription_granted (k : Port) (l : EntryId) (x : Subscription) : (s.setSubscription k l x).granted = s.granted := rfl
@[simp] theorem State.setSubscription_mem (k : Port) (l : EntryId) (x : Subscription) : (s.setSubscription k l x).mem = s.mem := rfl
@[simp] theorem State.setSubscription_timeBase (k : Port) (l : EntryId) (x : Subscription) : (s.setSubscription k l x).timeBase = s.timeBase := rfl
@[simp] theorem State.setSubscription_phase (k : Port) (l : EntryId) (x : Subscription) : (s.setSubscription k l x).phase = s.phase := rfl
@[simp] theorem State.setSubscription_owed (k : Port) (l : EntryId) (x : Subscription) : (s.setSubscription k l x).owed = s.owed := rfl
@[simp] theorem State.setSubscription_tickWaiting (k : Port) (l : EntryId) (x : Subscription) : (s.setSubscription k l x).tickWaiting = s.tickWaiting := rfl
@[simp] theorem State.setSubscription_grants (k : Port) (l : EntryId) (x : Subscription) : (s.setSubscription k l x).grants = s.grants := rfl
@[simp] theorem State.setSubscription_rings (k : Port) (l : EntryId) (x : Subscription) : (s.setSubscription k l x).rings = s.rings := rfl
@[simp] theorem State.setSubscription_nuInput (k : Port) (l : EntryId) (x : Subscription) : (s.setSubscription k l x).nuInput = s.nuInput := rfl
@[simp] theorem State.setSubscription_holder (k : Port) (l : EntryId) (x : Subscription) : (s.setSubscription k l x).holder = s.holder := rfl
@[simp] theorem State.setSubscription_waiters (k : Port) (l : EntryId) (x : Subscription) : (s.setSubscription k l x).waiters = s.waiters := rfl
@[simp] theorem State.setSubscription_ports (k : Port) (l : EntryId) (x : Subscription) : (s.setSubscription k l x).ports = s.ports := rfl
@[simp] theorem State.setSubscription_pending (k : Port) (l : EntryId) (x : Subscription) : (s.setSubscription k l x).pending = s.pending := rfl
@[simp] theorem State.setSubscription_entry (k : Port) (l : EntryId) (x : Subscription) (e : EntryId) : (s.setSubscription k l x).entry e = s.entry e := rfl
@[simp] theorem State.setSubscription_buffer (k : Port) (l : EntryId) (x : Subscription) (b : BufId) : (s.setSubscription k l x).buffer b = s.buffer b := rfl
@[simp] theorem State.setSubscription_aperture (k : Port) (l : EntryId) (x : Subscription) (q : Port) (a : ApIdx) : (s.setSubscription k l x).aperture q a = s.aperture q a := rfl
@[simp] theorem State.setSubscription_grant (k : Port) (l : EntryId) (x : Subscription) (q : Port) (i : GrantIdx) : (s.setSubscription k l x).grant q i = s.grant q i := rfl
@[simp] theorem State.setSubscription_ring (k : Port) (l : EntryId) (x : Subscription) (q : Port) : (s.setSubscription k l x).ring q = s.ring q := rfl
@[simp] theorem State.setSubscription_port (k : Port) (l : EntryId) (x : Subscription) (q : Port) : (s.setSubscription k l x).port q = s.port q := rfl

/-! ### setRing -/

@[simp] theorem State.setRing_catalog (k : Port) (x : Ring) : (s.setRing k x).catalog = s.catalog := rfl
@[simp] theorem State.setRing_buffers (k : Port) (x : Ring) : (s.setRing k x).buffers = s.buffers := rfl
@[simp] theorem State.setRing_freeList (k : Port) (x : Ring) : (s.setRing k x).freeList = s.freeList := rfl
@[simp] theorem State.setRing_threshold (k : Port) (x : Ring) : (s.setRing k x).threshold = s.threshold := rfl
@[simp] theorem State.setRing_apertures (k : Port) (x : Ring) : (s.setRing k x).apertures = s.apertures := rfl
@[simp] theorem State.setRing_lastGranted (k : Port) (x : Ring) : (s.setRing k x).lastGranted = s.lastGranted := rfl
@[simp] theorem State.setRing_granted (k : Port) (x : Ring) : (s.setRing k x).granted = s.granted := rfl
@[simp] theorem State.setRing_mem (k : Port) (x : Ring) : (s.setRing k x).mem = s.mem := rfl
@[simp] theorem State.setRing_timeBase (k : Port) (x : Ring) : (s.setRing k x).timeBase = s.timeBase := rfl
@[simp] theorem State.setRing_phase (k : Port) (x : Ring) : (s.setRing k x).phase = s.phase := rfl
@[simp] theorem State.setRing_owed (k : Port) (x : Ring) : (s.setRing k x).owed = s.owed := rfl
@[simp] theorem State.setRing_tickWaiting (k : Port) (x : Ring) : (s.setRing k x).tickWaiting = s.tickWaiting := rfl
@[simp] theorem State.setRing_grants (k : Port) (x : Ring) : (s.setRing k x).grants = s.grants := rfl
@[simp] theorem State.setRing_subs (k : Port) (x : Ring) : (s.setRing k x).subs = s.subs := rfl
@[simp] theorem State.setRing_nuInput (k : Port) (x : Ring) : (s.setRing k x).nuInput = s.nuInput := rfl
@[simp] theorem State.setRing_holder (k : Port) (x : Ring) : (s.setRing k x).holder = s.holder := rfl
@[simp] theorem State.setRing_waiters (k : Port) (x : Ring) : (s.setRing k x).waiters = s.waiters := rfl
@[simp] theorem State.setRing_ports (k : Port) (x : Ring) : (s.setRing k x).ports = s.ports := rfl
@[simp] theorem State.setRing_pending (k : Port) (x : Ring) : (s.setRing k x).pending = s.pending := rfl
@[simp] theorem State.setRing_entry (k : Port) (x : Ring) (e : EntryId) : (s.setRing k x).entry e = s.entry e := rfl
@[simp] theorem State.setRing_buffer (k : Port) (x : Ring) (b : BufId) : (s.setRing k x).buffer b = s.buffer b := rfl
@[simp] theorem State.setRing_aperture (k : Port) (x : Ring) (q : Port) (a : ApIdx) : (s.setRing k x).aperture q a = s.aperture q a := rfl
@[simp] theorem State.setRing_grant (k : Port) (x : Ring) (q : Port) (i : GrantIdx) : (s.setRing k x).grant q i = s.grant q i := rfl
@[simp] theorem State.setRing_subscription (k : Port) (x : Ring) (q : Port) (e : EntryId) : (s.setRing k x).subscription q e = s.subscription q e := rfl
@[simp] theorem State.setRing_port (k : Port) (x : Ring) (q : Port) : (s.setRing k x).port q = s.port q := rfl

/-! ### setPort -/

@[simp] theorem State.setPort_catalog (k : Port) (x : PortIf) : (s.setPort k x).catalog = s.catalog := rfl
@[simp] theorem State.setPort_buffers (k : Port) (x : PortIf) : (s.setPort k x).buffers = s.buffers := rfl
@[simp] theorem State.setPort_freeList (k : Port) (x : PortIf) : (s.setPort k x).freeList = s.freeList := rfl
@[simp] theorem State.setPort_threshold (k : Port) (x : PortIf) : (s.setPort k x).threshold = s.threshold := rfl
@[simp] theorem State.setPort_apertures (k : Port) (x : PortIf) : (s.setPort k x).apertures = s.apertures := rfl
@[simp] theorem State.setPort_lastGranted (k : Port) (x : PortIf) : (s.setPort k x).lastGranted = s.lastGranted := rfl
@[simp] theorem State.setPort_granted (k : Port) (x : PortIf) : (s.setPort k x).granted = s.granted := rfl
@[simp] theorem State.setPort_mem (k : Port) (x : PortIf) : (s.setPort k x).mem = s.mem := rfl
@[simp] theorem State.setPort_timeBase (k : Port) (x : PortIf) : (s.setPort k x).timeBase = s.timeBase := rfl
@[simp] theorem State.setPort_phase (k : Port) (x : PortIf) : (s.setPort k x).phase = s.phase := rfl
@[simp] theorem State.setPort_owed (k : Port) (x : PortIf) : (s.setPort k x).owed = s.owed := rfl
@[simp] theorem State.setPort_tickWaiting (k : Port) (x : PortIf) : (s.setPort k x).tickWaiting = s.tickWaiting := rfl
@[simp] theorem State.setPort_grants (k : Port) (x : PortIf) : (s.setPort k x).grants = s.grants := rfl
@[simp] theorem State.setPort_subs (k : Port) (x : PortIf) : (s.setPort k x).subs = s.subs := rfl
@[simp] theorem State.setPort_rings (k : Port) (x : PortIf) : (s.setPort k x).rings = s.rings := rfl
@[simp] theorem State.setPort_nuInput (k : Port) (x : PortIf) : (s.setPort k x).nuInput = s.nuInput := rfl
@[simp] theorem State.setPort_holder (k : Port) (x : PortIf) : (s.setPort k x).holder = s.holder := rfl
@[simp] theorem State.setPort_waiters (k : Port) (x : PortIf) : (s.setPort k x).waiters = s.waiters := rfl
@[simp] theorem State.setPort_pending (k : Port) (x : PortIf) : (s.setPort k x).pending = s.pending := rfl
@[simp] theorem State.setPort_entry (k : Port) (x : PortIf) (e : EntryId) : (s.setPort k x).entry e = s.entry e := rfl
@[simp] theorem State.setPort_buffer (k : Port) (x : PortIf) (b : BufId) : (s.setPort k x).buffer b = s.buffer b := rfl
@[simp] theorem State.setPort_aperture (k : Port) (x : PortIf) (q : Port) (a : ApIdx) : (s.setPort k x).aperture q a = s.aperture q a := rfl
@[simp] theorem State.setPort_grant (k : Port) (x : PortIf) (q : Port) (i : GrantIdx) : (s.setPort k x).grant q i = s.grant q i := rfl
@[simp] theorem State.setPort_subscription (k : Port) (x : PortIf) (q : Port) (e : EntryId) : (s.setPort k x).subscription q e = s.subscription q e := rfl
@[simp] theorem State.setPort_ring (k : Port) (x : PortIf) (q : Port) : (s.setPort k x).ring q = s.ring q := rfl

/-! ### updatePort -/

@[simp] theorem State.updatePort_catalog (k : Port) (f : PortIf → PortIf) : (s.updatePort k f).catalog = s.catalog := rfl
@[simp] theorem State.updatePort_buffers (k : Port) (f : PortIf → PortIf) : (s.updatePort k f).buffers = s.buffers := rfl
@[simp] theorem State.updatePort_freeList (k : Port) (f : PortIf → PortIf) : (s.updatePort k f).freeList = s.freeList := rfl
@[simp] theorem State.updatePort_threshold (k : Port) (f : PortIf → PortIf) : (s.updatePort k f).threshold = s.threshold := rfl
@[simp] theorem State.updatePort_apertures (k : Port) (f : PortIf → PortIf) : (s.updatePort k f).apertures = s.apertures := rfl
@[simp] theorem State.updatePort_lastGranted (k : Port) (f : PortIf → PortIf) : (s.updatePort k f).lastGranted = s.lastGranted := rfl
@[simp] theorem State.updatePort_granted (k : Port) (f : PortIf → PortIf) : (s.updatePort k f).granted = s.granted := rfl
@[simp] theorem State.updatePort_mem (k : Port) (f : PortIf → PortIf) : (s.updatePort k f).mem = s.mem := rfl
@[simp] theorem State.updatePort_timeBase (k : Port) (f : PortIf → PortIf) : (s.updatePort k f).timeBase = s.timeBase := rfl
@[simp] theorem State.updatePort_phase (k : Port) (f : PortIf → PortIf) : (s.updatePort k f).phase = s.phase := rfl
@[simp] theorem State.updatePort_owed (k : Port) (f : PortIf → PortIf) : (s.updatePort k f).owed = s.owed := rfl
@[simp] theorem State.updatePort_tickWaiting (k : Port) (f : PortIf → PortIf) : (s.updatePort k f).tickWaiting = s.tickWaiting := rfl
@[simp] theorem State.updatePort_grants (k : Port) (f : PortIf → PortIf) : (s.updatePort k f).grants = s.grants := rfl
@[simp] theorem State.updatePort_subs (k : Port) (f : PortIf → PortIf) : (s.updatePort k f).subs = s.subs := rfl
@[simp] theorem State.updatePort_rings (k : Port) (f : PortIf → PortIf) : (s.updatePort k f).rings = s.rings := rfl
@[simp] theorem State.updatePort_nuInput (k : Port) (f : PortIf → PortIf) : (s.updatePort k f).nuInput = s.nuInput := rfl
@[simp] theorem State.updatePort_holder (k : Port) (f : PortIf → PortIf) : (s.updatePort k f).holder = s.holder := rfl
@[simp] theorem State.updatePort_waiters (k : Port) (f : PortIf → PortIf) : (s.updatePort k f).waiters = s.waiters := rfl
@[simp] theorem State.updatePort_pending (k : Port) (f : PortIf → PortIf) : (s.updatePort k f).pending = s.pending := rfl
@[simp] theorem State.updatePort_entry (k : Port) (f : PortIf → PortIf) (e : EntryId) : (s.updatePort k f).entry e = s.entry e := rfl
@[simp] theorem State.updatePort_buffer (k : Port) (f : PortIf → PortIf) (b : BufId) : (s.updatePort k f).buffer b = s.buffer b := rfl
@[simp] theorem State.updatePort_aperture (k : Port) (f : PortIf → PortIf) (q : Port) (a : ApIdx) : (s.updatePort k f).aperture q a = s.aperture q a := rfl
@[simp] theorem State.updatePort_grant (k : Port) (f : PortIf → PortIf) (q : Port) (i : GrantIdx) : (s.updatePort k f).grant q i = s.grant q i := rfl
@[simp] theorem State.updatePort_subscription (k : Port) (f : PortIf → PortIf) (q : Port) (e : EntryId) : (s.updatePort k f).subscription q e = s.subscription q e := rfl
@[simp] theorem State.updatePort_ring (k : Port) (f : PortIf → PortIf) (q : Port) : (s.updatePort k f).ring q = s.ring q := rfl

/-! ### mapApertures -/

@[simp] theorem State.mapApertures_catalog (f : Aperture → Aperture) : (s.mapApertures f).catalog = s.catalog := rfl
@[simp] theorem State.mapApertures_buffers (f : Aperture → Aperture) : (s.mapApertures f).buffers = s.buffers := rfl
@[simp] theorem State.mapApertures_freeList (f : Aperture → Aperture) : (s.mapApertures f).freeList = s.freeList := rfl
@[simp] theorem State.mapApertures_threshold (f : Aperture → Aperture) : (s.mapApertures f).threshold = s.threshold := rfl
@[simp] theorem State.mapApertures_lastGranted (f : Aperture → Aperture) : (s.mapApertures f).lastGranted = s.lastGranted := rfl
@[simp] theorem State.mapApertures_granted (f : Aperture → Aperture) : (s.mapApertures f).granted = s.granted := rfl
@[simp] theorem State.mapApertures_mem (f : Aperture → Aperture) : (s.mapApertures f).mem = s.mem := rfl
@[simp] theorem State.mapApertures_timeBase (f : Aperture → Aperture) : (s.mapApertures f).timeBase = s.timeBase := rfl
@[simp] theorem State.mapApertures_phase (f : Aperture → Aperture) : (s.mapApertures f).phase = s.phase := rfl
@[simp] theorem State.mapApertures_owed (f : Aperture → Aperture) : (s.mapApertures f).owed = s.owed := rfl
@[simp] theorem State.mapApertures_tickWaiting (f : Aperture → Aperture) : (s.mapApertures f).tickWaiting = s.tickWaiting := rfl
@[simp] theorem State.mapApertures_grants (f : Aperture → Aperture) : (s.mapApertures f).grants = s.grants := rfl
@[simp] theorem State.mapApertures_subs (f : Aperture → Aperture) : (s.mapApertures f).subs = s.subs := rfl
@[simp] theorem State.mapApertures_rings (f : Aperture → Aperture) : (s.mapApertures f).rings = s.rings := rfl
@[simp] theorem State.mapApertures_nuInput (f : Aperture → Aperture) : (s.mapApertures f).nuInput = s.nuInput := rfl
@[simp] theorem State.mapApertures_holder (f : Aperture → Aperture) : (s.mapApertures f).holder = s.holder := rfl
@[simp] theorem State.mapApertures_waiters (f : Aperture → Aperture) : (s.mapApertures f).waiters = s.waiters := rfl
@[simp] theorem State.mapApertures_ports (f : Aperture → Aperture) : (s.mapApertures f).ports = s.ports := rfl
@[simp] theorem State.mapApertures_pending (f : Aperture → Aperture) : (s.mapApertures f).pending = s.pending := rfl
@[simp] theorem State.mapApertures_entry (f : Aperture → Aperture) (e : EntryId) : (s.mapApertures f).entry e = s.entry e := rfl
@[simp] theorem State.mapApertures_buffer (f : Aperture → Aperture) (b : BufId) : (s.mapApertures f).buffer b = s.buffer b := rfl
@[simp] theorem State.mapApertures_grant (f : Aperture → Aperture) (q : Port) (i : GrantIdx) : (s.mapApertures f).grant q i = s.grant q i := rfl
@[simp] theorem State.mapApertures_subscription (f : Aperture → Aperture) (q : Port) (e : EntryId) : (s.mapApertures f).subscription q e = s.subscription q e := rfl
@[simp] theorem State.mapApertures_ring (f : Aperture → Aperture) (q : Port) : (s.mapApertures f).ring q = s.ring q := rfl
@[simp] theorem State.mapApertures_port (f : Aperture → Aperture) (q : Port) : (s.mapApertures f).port q = s.port q := rfl

/-! ### mapPorts -/

@[simp] theorem State.mapPorts_catalog (f : Port → PortIf → PortIf) : (s.mapPorts f).catalog = s.catalog := rfl
@[simp] theorem State.mapPorts_buffers (f : Port → PortIf → PortIf) : (s.mapPorts f).buffers = s.buffers := rfl
@[simp] theorem State.mapPorts_freeList (f : Port → PortIf → PortIf) : (s.mapPorts f).freeList = s.freeList := rfl
@[simp] theorem State.mapPorts_threshold (f : Port → PortIf → PortIf) : (s.mapPorts f).threshold = s.threshold := rfl
@[simp] theorem State.mapPorts_apertures (f : Port → PortIf → PortIf) : (s.mapPorts f).apertures = s.apertures := rfl
@[simp] theorem State.mapPorts_lastGranted (f : Port → PortIf → PortIf) : (s.mapPorts f).lastGranted = s.lastGranted := rfl
@[simp] theorem State.mapPorts_granted (f : Port → PortIf → PortIf) : (s.mapPorts f).granted = s.granted := rfl
@[simp] theorem State.mapPorts_mem (f : Port → PortIf → PortIf) : (s.mapPorts f).mem = s.mem := rfl
@[simp] theorem State.mapPorts_timeBase (f : Port → PortIf → PortIf) : (s.mapPorts f).timeBase = s.timeBase := rfl
@[simp] theorem State.mapPorts_phase (f : Port → PortIf → PortIf) : (s.mapPorts f).phase = s.phase := rfl
@[simp] theorem State.mapPorts_owed (f : Port → PortIf → PortIf) : (s.mapPorts f).owed = s.owed := rfl
@[simp] theorem State.mapPorts_tickWaiting (f : Port → PortIf → PortIf) : (s.mapPorts f).tickWaiting = s.tickWaiting := rfl
@[simp] theorem State.mapPorts_grants (f : Port → PortIf → PortIf) : (s.mapPorts f).grants = s.grants := rfl
@[simp] theorem State.mapPorts_subs (f : Port → PortIf → PortIf) : (s.mapPorts f).subs = s.subs := rfl
@[simp] theorem State.mapPorts_rings (f : Port → PortIf → PortIf) : (s.mapPorts f).rings = s.rings := rfl
@[simp] theorem State.mapPorts_nuInput (f : Port → PortIf → PortIf) : (s.mapPorts f).nuInput = s.nuInput := rfl
@[simp] theorem State.mapPorts_holder (f : Port → PortIf → PortIf) : (s.mapPorts f).holder = s.holder := rfl
@[simp] theorem State.mapPorts_waiters (f : Port → PortIf → PortIf) : (s.mapPorts f).waiters = s.waiters := rfl
@[simp] theorem State.mapPorts_pending (f : Port → PortIf → PortIf) : (s.mapPorts f).pending = s.pending := rfl
@[simp] theorem State.mapPorts_entry (f : Port → PortIf → PortIf) (e : EntryId) : (s.mapPorts f).entry e = s.entry e := rfl
@[simp] theorem State.mapPorts_buffer (f : Port → PortIf → PortIf) (b : BufId) : (s.mapPorts f).buffer b = s.buffer b := rfl
@[simp] theorem State.mapPorts_aperture (f : Port → PortIf → PortIf) (q : Port) (a : ApIdx) : (s.mapPorts f).aperture q a = s.aperture q a := rfl
@[simp] theorem State.mapPorts_grant (f : Port → PortIf → PortIf) (q : Port) (i : GrantIdx) : (s.mapPorts f).grant q i = s.grant q i := rfl
@[simp] theorem State.mapPorts_subscription (f : Port → PortIf → PortIf) (q : Port) (e : EntryId) : (s.mapPorts f).subscription q e = s.subscription q e := rfl
@[simp] theorem State.mapPorts_ring (f : Port → PortIf → PortIf) (q : Port) : (s.mapPorts f).ring q = s.ring q := rfl

/-! ### toNotify -/

@[simp] theorem State.toNotify_catalog (x : NuItem) : (s.toNotify x).catalog = s.catalog := rfl
@[simp] theorem State.toNotify_buffers (x : NuItem) : (s.toNotify x).buffers = s.buffers := rfl
@[simp] theorem State.toNotify_freeList (x : NuItem) : (s.toNotify x).freeList = s.freeList := rfl
@[simp] theorem State.toNotify_threshold (x : NuItem) : (s.toNotify x).threshold = s.threshold := rfl
@[simp] theorem State.toNotify_apertures (x : NuItem) : (s.toNotify x).apertures = s.apertures := rfl
@[simp] theorem State.toNotify_lastGranted (x : NuItem) : (s.toNotify x).lastGranted = s.lastGranted := rfl
@[simp] theorem State.toNotify_granted (x : NuItem) : (s.toNotify x).granted = s.granted := rfl
@[simp] theorem State.toNotify_mem (x : NuItem) : (s.toNotify x).mem = s.mem := rfl
@[simp] theorem State.toNotify_timeBase (x : NuItem) : (s.toNotify x).timeBase = s.timeBase := rfl
@[simp] theorem State.toNotify_phase (x : NuItem) : (s.toNotify x).phase = s.phase := rfl
@[simp] theorem State.toNotify_owed (x : NuItem) : (s.toNotify x).owed = s.owed := rfl
@[simp] theorem State.toNotify_tickWaiting (x : NuItem) : (s.toNotify x).tickWaiting = s.tickWaiting := rfl
@[simp] theorem State.toNotify_grants (x : NuItem) : (s.toNotify x).grants = s.grants := rfl
@[simp] theorem State.toNotify_subs (x : NuItem) : (s.toNotify x).subs = s.subs := rfl
@[simp] theorem State.toNotify_rings (x : NuItem) : (s.toNotify x).rings = s.rings := rfl
@[simp] theorem State.toNotify_holder (x : NuItem) : (s.toNotify x).holder = s.holder := rfl
@[simp] theorem State.toNotify_waiters (x : NuItem) : (s.toNotify x).waiters = s.waiters := rfl
@[simp] theorem State.toNotify_ports (x : NuItem) : (s.toNotify x).ports = s.ports := rfl
@[simp] theorem State.toNotify_pending (x : NuItem) : (s.toNotify x).pending = s.pending := rfl
@[simp] theorem State.toNotify_entry (x : NuItem) (e : EntryId) : (s.toNotify x).entry e = s.entry e := rfl
@[simp] theorem State.toNotify_buffer (x : NuItem) (b : BufId) : (s.toNotify x).buffer b = s.buffer b := rfl
@[simp] theorem State.toNotify_aperture (x : NuItem) (q : Port) (a : ApIdx) : (s.toNotify x).aperture q a = s.aperture q a := rfl
@[simp] theorem State.toNotify_grant (x : NuItem) (q : Port) (i : GrantIdx) : (s.toNotify x).grant q i = s.grant q i := rfl
@[simp] theorem State.toNotify_subscription (x : NuItem) (q : Port) (e : EntryId) : (s.toNotify x).subscription q e = s.subscription q e := rfl
@[simp] theorem State.toNotify_ring (x : NuItem) (q : Port) : (s.toNotify x).ring q = s.ring q := rfl
@[simp] theorem State.toNotify_port (x : NuItem) (q : Port) : (s.toNotify x).port q = s.port q := rfl

/-! ### The record that an update replaces -/

@[simp] theorem State.entry_setEntry (k : EntryId) (x : Entry) (e : EntryId) :
    (s.setEntry k x).entry e = if k = e then x else s.entry e := by
  simp [State.entry, State.setEntry, Vector.getElem_set, Fin.ext_iff]

@[simp] theorem State.buffer_setBuffer (k : BufId) (x : BufRec) (b : BufId) :
    (s.setBuffer k x).buffer b = if k = b then x else s.buffer b := by
  simp [State.buffer, State.setBuffer, Vector.getElem_set, Fin.ext_iff]

@[simp] theorem State.aperture_setAperture (k : Port) (l : ApIdx) (x : Aperture) (q : Port) (a : ApIdx) :
    (s.setAperture k l x).aperture q a = if k = q ∧ l = a then x else s.aperture q a := by
  by_cases h : k = q <;> by_cases h' : l = a <;>
    simp_all [State.aperture, State.setAperture, Fin.ext_iff]

@[simp] theorem State.grant_setGrant (k : Port) (l : GrantIdx) (x : Grant) (q : Port) (i : GrantIdx) :
    (s.setGrant k l x).grant q i = if k = q ∧ l = i then x else s.grant q i := by
  by_cases h : k = q <;> by_cases h' : l = i <;>
    simp_all [State.grant, State.setGrant, Fin.ext_iff]

@[simp] theorem State.subscription_setSubscription (k : Port) (l : EntryId) (x : Subscription) (q : Port) (e : EntryId) :
    (s.setSubscription k l x).subscription q e = if k = q ∧ l = e then x else s.subscription q e := by
  by_cases h : k = q <;> by_cases h' : l = e <;>
    simp_all [State.subscription, State.setSubscription, Fin.ext_iff]

@[simp] theorem State.ring_setRing (k : Port) (x : Ring) (q : Port) :
    (s.setRing k x).ring q = if k = q then x else s.ring q := by
  simp [State.ring, State.setRing, Vector.getElem_set, Fin.ext_iff]

@[simp] theorem State.port_setPort (k : Port) (x : PortIf) (q : Port) :
    (s.setPort k x).port q = if k = q then x else s.port q := by
  simp [State.port, State.setPort, Vector.getElem_set, Fin.ext_iff]

@[simp] theorem State.port_updatePort (k : Port) (f : PortIf → PortIf) (q : Port) :
    (s.updatePort k f).port q = if k = q then f (s.port k) else s.port q := by
  simp [State.updatePort]

@[simp] theorem State.aperture_mapApertures (f : Aperture → Aperture) (q : Port) (a : ApIdx) :
    (s.mapApertures f).aperture q a = f (s.aperture q a) := by
  simp [State.aperture, State.mapApertures]

@[simp] theorem State.port_mapPorts (f : Port → PortIf → PortIf) (q : Port) :
    (s.mapPorts f).port q = f q (s.port q) := by
  simp [State.port, State.mapPorts]

@[simp] theorem State.nuInput_toNotify (x : NuItem) : (s.toNotify x).nuInput = s.nuInput ++ [x] := rfl

/-! ### Accessors after a change of other fields -/

/-- Two states with the same records in every place have the same field. -/
theorem State.catalog_ext {s t : State} (h : ∀ e, s.entry e = t.entry e) : s.catalog = t.catalog :=
  Vector.ext fun i hi => h ⟨i, hi⟩

theorem State.buffers_ext {s t : State} (h : ∀ b, s.buffer b = t.buffer b) : s.buffers = t.buffers :=
  Vector.ext fun i hi => h ⟨i, hi⟩

theorem State.ports_ext {s t : State} (h : ∀ p, s.port p = t.port p) : s.ports = t.ports :=
  Vector.ext fun i hi => h ⟨i, hi⟩

theorem State.rings_ext {s t : State} (h : ∀ p, s.ring p = t.ring p) : s.rings = t.rings :=
  Vector.ext fun i hi => h ⟨i, hi⟩

theorem State.apertures_ext {s t : State} (h : ∀ p a, s.aperture p a = t.aperture p a) : s.apertures = t.apertures :=
  Vector.ext fun i hi => Vector.ext fun j hj => h ⟨i, hi⟩ ⟨j, hj⟩

theorem State.grants_ext {s t : State} (h : ∀ p i, s.grant p i = t.grant p i) : s.grants = t.grants :=
  Vector.ext fun i hi => Vector.ext fun j hj => h ⟨i, hi⟩ ⟨j, hj⟩

theorem State.subs_ext {s t : State} (h : ∀ p e, s.subscription p e = t.subscription p e) : s.subs = t.subs :=
  Vector.ext fun i hi => Vector.ext fun j hj => h ⟨i, hi⟩ ⟨j, hj⟩

end Sys2Proof.Machine
end

