-- ==== Sys2Proof/Laws/Ops.lean ====
section
/-! SUPPORT. What each shared operation can do, said once: the records it changes, the fields it leaves, and when a block's turn
has come. -/

namespace Sys2Proof.Machine

variable (s : State)

/-! ### Members of a mask -/

theorem mem_members (mask : Byte) (a : ApIdx) : a ∈ members mask ↔ mask.getLsbD a = true := by
  simp [members]

theorem members_nodup (mask : Byte) : (members mask).Nodup := (List.nodup_finRange 8).filter _

/-- No member fails exactly when every member passes. -/
theorem firstFailure_eq_none (check : ApIdx → Option Status) (l : List ApIdx) :
    firstFailure check l = none ↔ ∀ a ∈ l, check a = none := by
  induction l with
  | nil => simp [firstFailure]
  | cons a t ih => unfold firstFailure; split <;> simp_all

/-- The member reported is one that fails, behind members that all pass. -/
theorem firstFailure_eq_some (check : ApIdx → Option Status) (l : List ApIdx) (a : ApIdx) (st : Status) :
    firstFailure check l = some (a, st) ↔
      ∃ l₁ l₂, l = l₁ ++ a :: l₂ ∧ (∀ b ∈ l₁, check b = none) ∧ check a = some st := by
  induction l with
  | nil => simp [firstFailure]
  | cons c t ih =>
    unfold firstFailure
    split
    · rename_i st' h
      constructor
      · intro h'
        simp only [Option.some.injEq, Prod.mk.injEq] at h'
        exact ⟨[], t, by simp [h'.1], by simp, by rw [← h'.1, h, h'.2]⟩
      · rintro ⟨l₁, l₂, h1, h2, h3⟩
        cases l₁ with
        | nil => simp_all
        | cons d r => simp only [List.cons_append, List.cons.injEq] at h1; have := h2 d (by simp); simp_all
    · rename_i h
      rw [ih]
      constructor
      · rintro ⟨l₁, l₂, h1, h2, h3⟩
        exact ⟨c :: l₁, l₂, by simp [h1], by simpa [h] using h2, h3⟩
      · rintro ⟨l₁, l₂, h1, h2, h3⟩
        cases l₁ with
        | nil => simp_all
        | cons d r =>
          simp only [List.cons_append, List.cons.injEq] at h1
          exact ⟨r, l₂, h1.2, fun b hb => h2 b (List.mem_cons_of_mem d hb), h3⟩

/-! ### When a block's turn has come -/

theorem commandAt_eq_some (p : Port) (k : Stage) (c : Pending) : s.commandAt p k = some c ↔ s.standsAt p c k := by
  simp only [State.commandAt, Option.filter_eq_some_iff, decide_eq_true_eq]
  exact ⟨fun h => ⟨h.1, h.2⟩, fun h => ⟨h.slot, h.stage⟩⟩

theorem storeCommand_eq_some (p : Port) (c : Pending) : s.storeCommand p = some c ↔ s.storeTurn p c := by
  unfold State.storeCommand
  split
  · rename_i h
    simp only [Option.filter_eq_some_iff, decide_eq_true_eq]
    exact ⟨fun h' => ⟨h, h'.1, h'.2⟩, fun h' => ⟨h'.slot, h'.stage⟩⟩
  · rename_i h
    exact ⟨fun h' => (nomatch h'), fun h' => absurd h'.granted h⟩

/-- SC takes no command of a port to which the store is not granted (R160). -/
theorem storeCommand_eq_none (p : Port) (h : s.granted ≠ some (.port p)) : s.storeCommand p = none := by
  unfold State.storeCommand
  rw [if_neg h]

/-! ### SC's arbiter -/

/-- The arbiter leaves the store with its holder, or grants it to a waiting tick, or else to the first waiting port of the rotation,
or to nobody where nobody waits (R160). -/
theorem arbitrate_cases :
    (s.granted ≠ none ∧ s.arbitrate = s) ∨
      (s.granted = none ∧ s.tickWaiting = true ∧ s.arbitrate = { s with granted := some .tick }) ∨
      (∃ p, s.granted = none ∧ s.tickWaiting = false ∧ s.nextInRotation = some p ∧
        s.arbitrate = { s with granted := some (.port p), lastGranted := p }) ∨
      (s.granted = none ∧ s.tickWaiting = false ∧ s.nextInRotation = none ∧ s.arbitrate = s) := by
  unfold State.arbitrate
  by_cases h : s.granted = none
  · cases h1 : s.tickWaiting
    · cases h2 : s.nextInRotation with
      | none => exact .inr (.inr (.inr ⟨h, rfl, rfl, by simp [h]⟩))
      | some p => exact .inr (.inr (.inl ⟨p, h, rfl, rfl, by simp [h]⟩))
    · exact .inr (.inl ⟨h, rfl, by simp [h]⟩)
  · exact .inl ⟨h, by simp [h]⟩

/-- The arbiter changes the holder of the store and the rotation only. -/
theorem arbitrate_frame :
    s.arbitrate = { s with granted := s.arbitrate.granted, lastGranted := s.arbitrate.lastGranted } := by
  rcases arbitrate_cases s with ⟨-, h⟩ | ⟨-, -, h⟩ | ⟨p, -, -, -, h⟩ | ⟨-, -, -, h⟩ <;> rw [h]

@[simp] theorem port_arbitrate (q : Port) : s.arbitrate.port q = s.port q := by
  unfold State.port; rw [arbitrate_frame]

@[simp] theorem nuInput_arbitrate : s.arbitrate.nuInput = s.nuInput := by rw [arbitrate_frame]

@[simp] theorem entry_arbitrate (e : EntryId) : s.arbitrate.entry e = s.entry e := by
  unfold State.entry; rw [arbitrate_frame]

@[simp] theorem aperture_arbitrate (q : Port) (a : ApIdx) : s.arbitrate.aperture q a = s.aperture q a := by
  unfold State.aperture; rw [arbitrate_frame]

@[simp] theorem buffer_arbitrate (b : BufId) : s.arbitrate.buffer b = s.buffer b := by
  unfold State.buffer; rw [arbitrate_frame]

/-! ### The pool -/

@[simp] theorem buffer_returnBuffer (b c : BufId) :
    (s.returnBuffer b).buffer c = if b = c then { state := .free, holds := 0 } else s.buffer c := s.buffer_setBuffer b _ c

@[simp] theorem freeList_returnBuffer (b : BufId) : (s.returnBuffer b).freeList = s.freeList ++ [b] := rfl

/-- Returning a buffer changes the buffer records and the free list only. -/
theorem returnBuffer_frame (b : BufId) :
    s.returnBuffer b = { s with buffers := (s.returnBuffer b).buffers, freeList := (s.returnBuffer b).freeList } := rfl

@[simp] theorem buffer_pin (b c : BufId) :
    (s.pin b).buffer c = if b = c then { s.buffer b with holds := (s.buffer b).holds + 1 } else s.buffer c :=
  s.buffer_setBuffer b _ c

/-- Pinning changes the buffer records only. -/
theorem pin_frame (b : BufId) : s.pin b = { s with buffers := (s.pin b).buffers } := rfl

/-- A buffer that leaves its entry is RETIRED if held, and FREE at the tail of the free list if not (R34). -/
theorem retireBuffer_cases (b : BufId) :
    (0 < (s.buffer b).holds ∧ s.retireBuffer b = s.setBuffer b { s.buffer b with state := .retired }) ∨
      ((s.buffer b).holds = 0 ∧ s.retireBuffer b = s.returnBuffer b) := by
  unfold State.retireBuffer
  split <;> simp_all

theorem retireBuffer_frame (b : BufId) :
    s.retireBuffer b = { s with buffers := (s.retireBuffer b).buffers, freeList := (s.retireBuffer b).freeList } := by
  rcases retireBuffer_cases s b with ⟨-, h⟩ | ⟨-, h⟩ <;> rw [h] <;> rfl

/-- A released pin lowers the hold count; a RETIRED buffer whose count falls to 0 becomes FREE (R36). -/
theorem releasePin_cases (b : BufId) :
    ((s.buffer b).state = .retired ∧ (s.buffer b).holds ≤ 1 ∧ s.releasePin b = s.returnBuffer b) ∨
      (¬((s.buffer b).state = .retired ∧ (s.buffer b).holds ≤ 1) ∧
        s.releasePin b = s.setBuffer b { s.buffer b with holds := (s.buffer b).holds - 1 }) := by
  unfold State.releasePin
  by_cases h : (s.buffer b).state = .retired ∧ (s.buffer b).holds ≤ 1
  · exact .inl ⟨h.1, h.2, if_pos ⟨h.1, by omega⟩⟩
  · exact .inr ⟨h, if_neg fun h' => h ⟨h'.1, by omega⟩⟩

theorem releasePin_frame (b : BufId) :
    s.releasePin b = { s with buffers := (s.releasePin b).buffers, freeList := (s.releasePin b).freeList } := by
  rcases releasePin_cases s b with ⟨-, -, h⟩ | ⟨-, h⟩ <;> rw [h] <;> rfl

/-- An allocation takes the head of the free list, makes it STAGED and fills its words (R30). -/
theorem allocate_eq_some (p : Port) (a : ApIdx) (f : WordIdx → Word) (b : BufId) (t : State) :
    s.allocate p a f = some (b, t) ↔
      ∃ rest, s.freeList = b :: rest ∧
        t = { s.setBuffer b { state := .staged p a, holds := 0 } with freeList := rest, mem := s.mem.fill b f } := by
  unfold State.allocate
  split <;> rename_i h
  · simp [h]
  · rw [h]
    constructor
    · intro h'
      simp only [Option.some.injEq, Prod.mk.injEq] at h'
      obtain ⟨rfl, rfl⟩ := h'
      exact ⟨_, rfl, rfl⟩
    · rintro ⟨rest', h1, rfl⟩
      simp only [List.cons.injEq] at h1
      obtain ⟨rfl, rfl⟩ := h1
      rfl

/-- Closing one aperture changes that aperture, the buffer records and the free list only. -/
theorem closeAperture_frame (p : Port) (a : ApIdx) :
    s.closeAperture p a =
      { s with
        buffers := (s.closeAperture p a).buffers
        freeList := (s.closeAperture p a).freeList
        apertures := (s.closeAperture p a).apertures } := by
  unfold State.closeAperture
  split
  · rfl
  · rename_i b _ _ _ _
    rcases releasePin_cases s b with ⟨-, -, h⟩ | ⟨-, h⟩ <;> rw [h] <;> rfl
  · rfl
  · rfl

/-- After a closing the aperture is CLOSED and every other one is as before (R61, R62). -/
theorem aperture_closeAperture (p : Port) (a : ApIdx) (q : Port) (b : ApIdx) :
    (s.closeAperture p a).aperture q b = if p = q ∧ a = b then .closed else s.aperture q b := by
  unfold State.closeAperture
  split
  · rename_i h
    split
    · rename_i h'; rw [← h'.1, ← h'.2, h]
    · rfl
  · rename_i c _ _ _ _
    rw [State.aperture_setAperture]
    rcases releasePin_cases s c with ⟨-, -, h⟩ | ⟨-, h⟩ <;> rw [h] <;> rfl
  · rw [State.aperture_setAperture]; rfl
  · rw [State.aperture_setAperture]; rfl

/-- Closing a list of apertures changes them, the buffer records and the free list only. -/
theorem closeAll_frame (p : Port) (l : List ApIdx) :
    s.closeAll p l =
      { s with
        buffers := (s.closeAll p l).buffers
        freeList := (s.closeAll p l).freeList
        apertures := (s.closeAll p l).apertures } := by
  induction l generalizing s with
  | nil => rfl
  | cons a t ih =>
    have h : s.closeAll p (a :: t) = (s.closeAperture p a).closeAll p t := rfl
    have h1 := closeAperture_frame s p a
    rw [h]
    generalize s.closeAperture p a = u at h1 ⊢
    have h2 := ih u
    generalize u.closeAll p t = v at h2 ⊢
    rw [h2, h1]

/-- After a closing of a list its members are CLOSED and every other aperture is as before. -/
theorem aperture_closeAll (p : Port) (l : List ApIdx) (q : Port) (b : ApIdx) :
    (s.closeAll p l).aperture q b = if p = q ∧ b ∈ l then .closed else s.aperture q b := by
  induction l generalizing s with
  | nil => simp [State.closeAll]
  | cons a t ih =>
    have h : s.closeAll p (a :: t) = (s.closeAperture p a).closeAll p t := rfl
    rw [h, ih, aperture_closeAperture]
    by_cases h1 : p = q
    · by_cases h2 : b ∈ t
      · simp [h1, h2]
      · by_cases h3 : a = b
        · simp [h1, h3]
        · simp [h1, h2, h3, Ne.symm h3]
    · simp [h1]

/-! ### The end of a store event and the completion of a command -/

/-- The end of a store event frees the store and hands a crossing, and leaves everything else (R38, R160). -/
theorem endStoreEvent_frame (before after : State) :
    before.endStoreEvent after = { after with granted := none, ports := (before.endStoreEvent after).ports } := by
  unfold State.endStoreEvent
  split <;> rfl

/-- What a Port Interface holds after a store event: a crossing more exactly when the free count fell from at or above the
threshold to below it. -/
theorem port_endStoreEvent (before after : State) (q : Port) :
    (before.endStoreEvent after).port q =
      if before.threshold.val ≤ before.freeList.length ∧ after.freeList.length < before.threshold.val then
        { after.port q with crossings := (after.port q).crossings + 1 }
      else after.port q := by
  unfold State.endStoreEvent
  split
  · rw [State.handCrossing, State.port_mapPorts]; rfl
  · rfl

/-- A completion changes the completing port and the arbiter's grant only. -/
theorem complete_frame (p : Port) (st : Status) (rw : Results) :
    s.complete p st rw =
      { s with
        ports := (s.complete p st rw).ports
        granted := (s.complete p st rw).granted
        lastGranted := (s.complete p st rw).lastGranted } := by
  unfold State.complete
  rw [arbitrate_frame]
  rfl

theorem port_complete (p : Port) (st : Status) (rw : Results) (q : Port) :
    (s.complete p st rw).port q =
      if p = q then
        (if (s.port p).session = .teardown .await then (s.port p).discardCompletion else (s.port p).complete st rw)
      else s.port q := by
  simp only [State.complete, port_arbitrate, State.port_updatePort]

/-- A store command leaves what its answer left, but for the arbiter and the Port Interfaces. -/
theorem finishStore_frame (before : State) (p : Port) (r : Answered) :
    before.finishStore p r =
      { r.1 with
        ports := (before.finishStore p r).ports
        granted := (before.finishStore p r).granted
        lastGranted := (before.finishStore p r).lastGranted } := by
  unfold State.finishStore
  rw [complete_frame, endStoreEvent_frame]

/-! ### The tick -/

/-- A tick passes over an entry whose countdown does not run (R96). -/
theorem visited_of_not_runs {n : Half} {x : Entry} (h : x.runs = false) : x.visited n = x := by
  simp [Entry.visited, Entry.expiresAt, h]

/-- What a visit can do: an expiry of a CURRENT entry, an expiry of an EMPTY one, or neither (R96 to R98). -/
theorem visitEntry_cases (n : Half) (e : EntryId) :
    ((s.entry e).expiresAt n = true ∧ (s.entry e).state = .current ∧
        s.visitEntry n e = ((s.setEntry e ((s.entry e).visited n)).mapApertures
          (Aperture.markStale (s.entry e).current)).reportEntry .stale e (s.entry e).version s.timeBase none) ∨
      ((s.entry e).expiresAt n = true ∧ (s.entry e).state ≠ .current ∧
        s.visitEntry n e = (s.setEntry e ((s.entry e).visited n)).reportEntry .stale e 0 s.timeBase none) ∨
      ((s.entry e).expiresAt n = false ∧ s.visitEntry n e = s.setEntry e ((s.entry e).visited n)) := by
  unfold State.visitEntry State.announceExpiry
  cases h : (s.entry e).expiresAt n
  · exact .inr (.inr ⟨rfl, by simp [h]⟩)
  · by_cases h' : (s.entry e).state = .current
    · exact .inl ⟨rfl, h', by simp [h, h']⟩
    · exact .inr (.inl ⟨rfl, h', by simp [h, h']⟩)

/-- What a visit does to the visited entry, and that it leaves every other one (R96). -/
theorem entry_visitEntry (n : Half) (e e' : EntryId) :
    (s.visitEntry n e).entry e' = if e = e' then (s.entry e).visited n else s.entry e' := by
  rcases visitEntry_cases s n e with ⟨-, -, h⟩ | ⟨-, -, h⟩ | ⟨-, h⟩ <;> rw [h] <;> exact s.entry_setEntry e _ e'

/-- A visit changes the catalog, the readers' flags and the Notification Unit's input order only (R96 to R98). -/
theorem visitEntry_frame (n : Half) (e : EntryId) :
    s.visitEntry n e =
      { s with
        catalog := (s.visitEntry n e).catalog
        apertures := (s.visitEntry n e).apertures
        nuInput := (s.visitEntry n e).nuInput } := by
  rcases visitEntry_cases s n e with ⟨-, -, h⟩ | ⟨-, -, h⟩ | ⟨-, h⟩ <;> rw [h] <;> rfl

/-- The visits of a list of entries change the same fields only. -/
theorem visits_frame (n : Half) (l : List EntryId) :
    l.foldl (State.visitEntry n) s =
      { s with
        catalog := (l.foldl (State.visitEntry n) s).catalog
        apertures := (l.foldl (State.visitEntry n) s).apertures
        nuInput := (l.foldl (State.visitEntry n) s).nuInput } := by
  induction l generalizing s with
  | nil => rfl
  | cons e t ih =>
    have h1 := visitEntry_frame s n e
    rw [List.foldl_cons]
    generalize s.visitEntry n e = u at h1 ⊢
    have h2 := ih u
    generalize t.foldl (State.visitEntry n) u = v at h2 ⊢
    rw [h2, h1]

/-- After the visits of a list without repeats its entries have been visited once, and every other one is as before. -/
theorem entry_visits (n : Half) (l : List EntryId) (hl : l.Nodup) (e : EntryId) :
    (l.foldl (State.visitEntry n) s).entry e = if e ∈ l then (s.entry e).visited n else s.entry e := by
  induction l generalizing s with
  | nil => rfl
  | cons c t ih =>
    rw [List.foldl_cons, ih _ (List.nodup_cons.mp hl).2, entry_visitEntry]
    by_cases h : c = e
    · have : e ∉ t := h ▸ (List.nodup_cons.mp hl).1
      simp [h, this]
    · simp [h, Ne.symm h]

/-- After a tick every entry has been visited once (R96). -/
theorem entry_takeTick (e : EntryId) : s.takeTick.entry e = (s.entry e).visited s.owed := by
  have key : ∀ u : State, u.arbitrate.entry e = u.entry e := fun u => congrArg (·.catalog[e]) (arbitrate_frame u)
  unfold State.takeTick
  rw [key, entry_visits _ _ s.running ((List.nodup_finRange 512).filter _)]
  change (if e ∈ s.running then (s.entry e).visited s.owed else s.entry e) = _
  cases h : (s.entry e).runs
  · simp [visited_of_not_runs h]
  · simp [State.running, h]

/-- A tick changes the catalog, the readers' flags, the Notification Unit's input order, the Freshness Monitor's request and the
arbiter's grant only (R95, R96). -/
theorem takeTick_frame :
    s.takeTick =
      { s with
        owed := 0
        tickWaiting := false
        catalog := s.takeTick.catalog
        apertures := s.takeTick.apertures
        nuInput := s.takeTick.nuInput
        granted := s.takeTick.granted
        lastGranted := s.takeTick.lastGranted } := by
  unfold State.takeTick
  rw [arbitrate_frame, visits_frame]

/-! ### Rings -/

/-- An append either adds one record with the counter's value and sets NOTIFY, or, at a full ring, raises the lost count and sets
OVERFLOW (R128, R131). -/
theorem appendRecord_cases (p : Port) (x : Record) :
    ((s.ring p).records.length < 64 ∧
        s.appendRecord p x = (s.setRing p ((s.ring p).push x)).updatePort p (·.setLatch bitNotify)) ∨
      (64 ≤ (s.ring p).records.length ∧
        s.appendRecord p x =
          (s.setRing p { s.ring p with lost := saturatingSucc (s.ring p).lost }).updatePort p PortIf.raiseOverflow) := by
  unfold State.appendRecord Ring.hasRoom Config.ringSize
  by_cases h : (s.ring p).records.length < 64
  · exact .inl ⟨h, by simp [h]⟩
  · exact .inr ⟨by omega, by simp [h]⟩

theorem appendRecord_frame (p : Port) (x : Record) :
    s.appendRecord p x = { s with rings := (s.appendRecord p x).rings, ports := (s.appendRecord p x).ports } := by
  rcases appendRecord_cases s p x with ⟨-, h⟩ | ⟨-, h⟩ <;> rw [h] <;> rfl

/-- A report folds into the youngest PUBLISHED record of its local number, and only if there is one (R129). -/
theorem coalesceInto_eq_some (l : LocalNo) (r : EntryReport) (xs ys : List Record) :
    coalesceInto l r xs = some ys ↔
      ∃ l₁ x l₂, xs = l₁ ++ x :: l₂ ∧ x.coalescesWith l = true ∧ (∀ y ∈ l₂, y.coalescesWith l = false) ∧
        ys = l₁ ++ x.fold r :: l₂ := by
  induction xs generalizing ys with
  | nil => simp [coalesceInto]
  | cons c t ih =>
    unfold coalesceInto
    cases h : coalesceInto l r t with
    | some zs =>
      obtain ⟨l₁, x, l₂, h1, h2, h3, h4⟩ := (ih zs).mp h
      constructor
      · rintro ⟨⟩
        exact ⟨c :: l₁, x, l₂, by simp [h1], h2, h3, by simp [h4]⟩
      · rintro ⟨m₁, y, m₂, g1, g2, g3, g4⟩
        cases m₁ with
        | nil =>
          simp only [List.nil_append, List.cons.injEq] at g1
          have := g3 x (by rw [← g1.2, h1]; simp)
          simp_all
        | cons d m =>
          simp only [List.cons_append, List.cons.injEq] at g1
          have := (ih (m ++ y.fold r :: m₂)).mpr ⟨m, y, m₂, g1.2, g2, g3, rfl⟩
          rw [h] at this
          simp_all
    | none =>
      have hn : ∀ y ∈ t, y.coalescesWith l = false := by
        clear ih
        induction t with
        | nil => simp
        | cons d t ih' =>
          unfold coalesceInto at h
          split at h
          · simp at h
          · rename_i h'
            split at h
            · simp at h
            · rename_i h''
              intro y hy
              rcases List.mem_cons.mp hy with rfl | hy
              · simpa using h''
              · exact ih' h' y hy
      constructor
      · intro h'
        dsimp only at h'
        split at h'
        · rename_i hc
          cases h'
          exact ⟨[], c, t, rfl, hc, hn, rfl⟩
        · cases h'
      · rintro ⟨m₁, y, m₂, g1, g2, g3, g4⟩
        cases m₁ with
        | nil =>
          simp only [List.nil_append, List.cons.injEq] at g1
          obtain ⟨rfl, rfl⟩ := g1
          simp [g2, g4]
        | cons d m =>
          simp only [List.cons_append, List.cons.injEq] at g1
          have := hn y (by rw [g1.2]; simp)
          simp_all

end Sys2Proof.Machine
end

