-- ==== Sys2Proof/Tests/Slice0.lean ====
section
/-! SUPPORT. Tests: ill-formed terms refused, words of the window read from the spec's tables, one step of each command on a small
state, and for each statement with hypotheses a state that meets them. Expected results are taken from the rules and tables of
spec/ named at each test. -/

namespace Sys2Proof.Tests

open Sys2Proof Sys2Proof.Machine

set_option Elab.async false

/-! ### Small states -/

/-- The store granted to port `p` (R160). -/
def granting (s : State) (p : Port) : State := { s with granted := some (.port p), lastGranted := p }

/-- Port `p` ATTACHED, with a command at a place of its path and answers for it; one at SC's arbiter has the grant. -/
def standing (s : State) (p : Port) (req : Request) (k : Stage) (ans : Vector Answer 8 := noAnswers) : State :=
  (if k = .store then granting s p else s).updatePort p fun pi =>
    { pi with
      presence := true
      session := .attached
      slot := some { req := req, stage := k, locals := noLocals, answers := ans } }

/-- Port `p` in a session, with an empty slot. -/
def inSession (s : State) (p : Port) (k : Session) : State :=
  s.updatePort p fun pi => { pi with presence := true, session := k }

/-- The state that a command leaves. -/
def after (c : Instr) (s : State) : State :=
  match exec c s with
  | .next t => t
  | _ => s

/-- The tick request granted, with an owed count. -/
def ticking (s : State) (n : Half) : State := { s with granted := some .tick, tickWaiting := true, owed := n }

/-- READ and WRITE. -/
def both : Rights := { read := true, write := true }

/-- READ alone. -/
def readOnly : Rights := { read := true, write := false }

/-- One answer, in position 0. -/
def answered (e : EntryId) (r : Rights) : Vector Answer 8 := noAnswers.set 0 (some (e, r))

/-- Local numbers all 0. -/
def zeros : Vector LocalNo 8 := Vector.replicate 8 0

/-- A published entry of length 3, producer SHARED (Chapter 2, Section 2.12 has the same shape). -/
def entrySeven : Entry :=
  { state := .current, length := 3, producer := some .shared, generation := 1, version := 2, current := some 1,
    publishTime := some 20, publisher := some 1, period := 5, grace := 0, countdown := 5, staleCount := 0 }

/-- A defined entry without a value. -/
def entryEight : Entry :=
  { Entry.undefinedWith 4 with state := .empty, length := 16, producer := some (.port 1), period := 7, grace := 2, countdown := 2 }

/-- A STALE entry whose buffer no reader holds. -/
def entryNine : Entry :=
  { entrySeven with state := .stale, length := 1, current := some 4, countdown := 0, staleCount := 1 }

/-- The binding of an aperture opened on entry 7. -/
def onSeven : Binding := { localNo := 40, entry := 7, generation := 1, length := 3 }

/-- A store with an older reader (P2, aperture 0), a reader (P3, 2), a writer (P1, 0) and an orphaned writer (P1, 5). -/
def store : State :=
  { State.reset with
    catalog := ((State.reset.catalog.set 7 entrySeven).set 8 entryEight).set 9 entryNine
    buffers := ((((State.reset.buffers.set 0 { state := .retired, holds := 1 }).set 1 { state := .current 7, holds := 1 }).set 2
      { state := .staged 1 0, holds := 0 }).set 3 { state := .staged 1 5, holds := 0 }).set 4 { state := .current 9, holds := 0 }
    freeList := (List.finRange 384).drop 5
    apertures := #v[Vector.replicate 8 .closed,
      ((Vector.replicate 8 .closed).set 0 (.writing onSeven 2 2)).set 5
        (.orphaned { localNo := 41, entry := 30, generation := 0, length := 2 } 3 0),
      (Vector.replicate 8 .closed).set 0 (.reading onSeven 0 1 10 { updated := true, stale := false, gone := false }),
      (Vector.replicate 8 .closed).set 2 (.reading onSeven 1 2 20 { updated := false, stale := false, gone := false })] }

theorem store_entry (e : EntryId) : store.entry e =
    if e = 9 then entryNine else if e = 8 then entryEight else if e = 7 then entrySeven else Entry.undefinedWith 0 := by
  simp only [State.entry, store, State.reset, Fin.getElem_fin, Vector.getElem_set, Vector.getElem_replicate, Fin.ext_iff]
  simp only [eq_comm]
  rfl

theorem store_buffer (b : BufId) : store.buffer b =
    if b = 4 then { state := .current 9, holds := 0 } else if b = 3 then { state := .staged 1 5, holds := 0 }
    else if b = 2 then { state := .staged 1 0, holds := 0 } else if b = 1 then { state := .current 7, holds := 1 }
    else if b = 0 then { state := .retired, holds := 1 } else { state := .free, holds := 0 } := by
  simp only [State.buffer, store, State.reset, Fin.getElem_fin, Vector.getElem_set, Vector.getElem_replicate, Fin.ext_iff]
  simp only [eq_comm]
  rfl

/-- The countdowns that run, entry by entry. -/
theorem store_running : store.running = [7, 8] := by
  simp only [State.running, store_entry]; decide +kernel

/-- What a row that takes the tick leaves of a state with the catalog of `store`: entries 7 and 8 are visited. -/
theorem after_tick {i : Instr} {s : State} (n : Half) (hs : s.catalog = store.catalog)
    (h : exec i (ticking s n) = .next (ticking s n).takeTick) :
    after i (ticking s n) = State.arbitrate ([7, 8].foldl (State.visitEntry n)
      { ticking s n with owed := 0, tickWaiting := false, granted := none }) := by
  have hr : (ticking s n).running = [7, 8] := by
    rw [← store_running]; unfold State.running State.entry; rw [← hs]; rfl
  rw [after, h]
  change State.takeTick _ = _
  rw [State.takeTick, hr]
  rfl

/-- A tick that expires an entry of state `k`. -/
theorem expires {s : State} {k : EntryState} (e : EntryId) (h : ((s.entry e).expiresAt s.owed && (s.entry e).state = k) = true) :
    s.tickExpires k = true := List.any_eq_true.mpr ⟨e, List.mem_finRange e, h⟩

theorem mem_store_freeList (b : BufId) : b ∈ store.freeList ↔ 5 ≤ b.val := by
  revert b; decide +kernel

theorem store_stages : ∀ p a, (store.aperture p a).stages =
    if p = 1 ∧ a = 0 then some 2 else if p = 1 ∧ a = 5 then some 3 else none := by decide

theorem store_pins (b : BufId) : store.pinCount b = if b = 0 ∨ b = 1 then 1 else 0 := by
  revert b; decide +kernel

theorem store_pool : store.PoolOk where
  freeNodup := (List.nodup_finRange 384).sublist (List.drop_sublist _ _)
  free b := by
    rw [mem_store_freeList, store_buffer]
    simp only [Fin.ext_iff]
    split_ifs <;> simp_all
    omega
  staged b p a := by
    rw [store_stages, store_buffer]
    split_ifs <;> simp_all
    all_goals grind
  current b e := by
    rw [store_buffer, store_entry]
    split_ifs <;> simp_all [entryNine, entrySeven, entryEight, Entry.undefinedWith]
    all_goals grind
  holds b := by
    rw [store_pins, store_buffer]
    split_ifs <;> simp_all
  retiredHeld b := by
    rw [store_buffer]
    split_ifs <;> simp_all
  unheld b := by
    rw [store_buffer]
    split_ifs <;> simp_all

/-! ### Ill-formed terms -/

/-- R167: WINDOW_WRITE does not cover the command, latch, mask, force, take and data words; it covers the words beside them. -/
theorem test_windowWrite_wellFormed :
    ([0x000, 0x010, 0x011, 0x012, 0x026, 0x080, 0x0FF].all fun o => !(Instr.windowWrite 0 o 0).wellFormed) = true ∧
      ([0x001, 0x005, 0x013, 0x014, 0x020, 0x027, 0x07F, 0x100, 0x3FF].all fun o => (Instr.windowWrite 0 o 0).wellFormed) = true := by
  decide +kernel

/-- R159, Table 10-2: a code that names a command is no unknown code. -/
theorem test_bad_wellFormed :
    (Request.bad 0x10).wellFormed = false ∧ (Request.bad 0x00).wellFormed = false ∧ (Request.bad 0x04).wellFormed = true ∧
      (Request.bad 0xFF).wellFormed = true := by decide +kernel

/-! ### Words of the command block, written from Tables 10-2 to 10-4 -/

/-- ORD, code 10h, of apertures 0 and 7: local number FFFh for 0 and 5 for 7. -/
theorem test_decode_ord :
    decodeRequest 0x00008110 #v[0x00000FFF, 0, 0, 0x00050000] = .ord 0x81 (((Vector.replicate 8 0).set 0 0xFFF).set 7 5) := by
  decide +kernel

/-- PUB, code 13h, of aperture 1 with CONDITIONAL (bit 16) and with RETAIN (bit 17). -/
theorem test_decode_pub :
    decodeRequest 0x00010213 #v[0, 0, 0, 0] = .pub 0x02 true false ∧
      decodeRequest 0x00020213 #v[0, 0, 0, 0] = .pub 0x02 false true := by decide +kernel

/-- OWR, code 12h: local number 100h, aperture 5, ZERO. REF, CLS and INS beside it. -/
theorem test_decode_aperture_commands :
    decodeRequest 0x12 #v[0x01050100, 0, 0, 0] = .owr 0x100 5 true ∧ decodeRequest 0xFF11 #v[0, 0, 0, 0] = .ref 0xFF ∧
      decodeRequest 0x0114 #v[0, 0, 0, 0] = .cls 1 ∧ decodeRequest 0x15 #v[7, 0, 0, 0] = .ins 7 := by decide +kernel

/-- SUB, code 20h: local number 3, STALE (17) and DEFINED (19), coalesce (24). -/
theorem test_decode_sub :
    decodeRequest 0x20 #v[0x010A0003, 0, 0, 0] =
      .sub 3 { published := false, stale := true, withdrawn := false, defined := true } true := by decide +kernel

/-- DEF, code 40h, and SFR, code 42h: id 511, length 16, producer SHARED, period 1000, grace 2. -/
theorem test_decode_def :
    decodeRequest 0x40 #v[0x041001FF, 0x000203E8, 0, 0] = .define 511 16 4 1000 2 ∧
      decodeRequest 0x42 #v[0x000001FF, 0x000203E8, 0, 0] = .sfr 511 1000 2 := by decide +kernel

/-- SGR, code 50h: port 2, grant 7, count 512, local base 4095, global base 1, WRITE alone. CLA, code 30h, with WAIT (18). -/
theorem test_decode_sgr :
    decodeRequest 0x50 #v[0x02000702, 0x00010FFF, 0x00000002, 0] =
      .sgr 2 7 512 4095 1 { read := false, write := true } ∧ decodeRequest 0x00040030 #v[0, 0, 0, 0] = .cla true := by
  decide +kernel

/-- Every other code of Table 10-2, and a code that it does not name. -/
theorem test_decode_codes :
    [0x00, 0x01, 0x02, 0x03, 0x16, 0x21, 0x31, 0x41, 0x43, 0x51, 0x52].map (fun w => decodeRequest w #v[0, 0, 0, 0]) =
      [.nop, .att, .det, .rtm, .pst, .mrk, .rel, .wdr 0, .spt 0, .rgr 0 0, .bad 0x52] := by decide +kernel

/-- No row of the command table gives bits. -/
theorem test_no_table_word : decodeTableWord 32 0x00008110 = none := rfl

/-! ### One step of each command -/

theorem test_nop_latches_done :
    (after (.nop 2) (standing State.reset 2 .nop .atPort)).hostRead 2 0x010 = 0x00000004 := by decide +kernel

theorem test_badCommand_status :
    (after (.badCommand 0) (standing State.reset 0 (.bad 0x77) .atPort)).hostRead 0 0x005 = 0x04 := by decide +kernel

/-- R103, Table 10-5: the upper half of the time base is in result word 1. -/
theorem test_rtm_words :
    let s := after (.rtm 1) (standing { State.reset with timeBase := 0xABCD00000007 } 1 .rtm .atPort)
    s.hostRead 1 0x006 = 7 ∧ s.hostRead 1 0x007 = 0xABCD := by decide +kernel

theorem test_att_hands_notices :
    let s := after (.att 1) (inSession (standing State.reset 1 .att .atPort) 1 .unattached)
    (s.port 1).session = .attached ∧ (s.port 0).notices = [.peer 1] ∧ (s.port 1).notices = [] ∧
      s.nuInput = [.port (.attached 1 0)] := by decide +kernel

/-- R150, R153: presence lost while the ATT is pending: it is discarded as NOT_ATTACHED, without DONE. -/
theorem test_att_discarded :
    let s := after (.presenceDeasserted 1) (after (.att 1) (inSession (standing State.reset 1 .att .atPort) 1 .unattached))
    s.hostRead 1 0x005 = 0x01 ∧ (after (.att 1) s).hostRead 1 0x005 = 0x03 ∧ (after (.att 1) s).hostRead 1 0x010 = 0 := by
  decide +kernel

theorem test_det_stays_pending :
    let s := after (.det 1) (standing State.reset 1 .det .atPort)
    s.hostRead 1 0x005 = 0x01 ∧ (s.port 1).session = .teardown .store := by decide +kernel

/-- R144: DEF without the claim. -/
theorem test_arrival_needs_claim :
    (after (.commandArrival 0 0x40) (inSession State.reset 0 .attached)).hostRead 0 0x005 = 0x11 ∧
      (after (.commandArrival 0 0x40) { inSession State.reset 0 .attached with holder := some 0 }).hostRead 0 0x005 = 0x01 := by
  decide +kernel

theorem test_arrival_in_unattached :
    (after (.commandArrival 3 0x00) (inSession State.reset 3 .unattached)).hostRead 3 0x005 = 0x03 := by decide +kernel

/-- R158, R173: COMMAND_OVERRUN has code 1 and no aperture. -/
theorem test_overrun_record :
    (after (.commandOverrun 0 0x14) (standing State.reset 0 .nop .atPort)).hostRead 0 0x014 = 0x0000FF01 := by decide +kernel

/-- R108: the lower grant decides, though the higher gives more rights. -/
theorem test_translation_takes_lower_grant :
    let g (b : EntryId) (r : Rights) : Grant := { enabled := true, localBase := 40, count := 10, globalBase := b, rights := r }
    let s := (State.reset.setGrant 0 3 (g 100 both)).setGrant 0 1 (g 7 readOnly)
    let t := after (.commandTranslation 0) (s.updatePort 0 fun pi =>
      { pi with session := .attached, slot := some { req := .ins 42, stage := .translate, locals := oneLocal 42, answers := noAnswers } })
    ((t.port 0).slot.map fun c => (c.stage, c.answers[0])) = some (.store, some (9, readOnly)) := by decide +kernel

/-- R64: the word reaches the staged buffer; R64: at the length it is dropped without a fault. -/
theorem test_data_write :
    (after (.dataWordWrite 1 0 2 0xDEADBEEF) (inSession store 1 .attached)).hostRead 1 0x082 = 0xDEADBEEF ∧
      (after (.dataWordWrite 1 0 3 0xDEADBEEF) (inSession store 1 .attached)).hostRead 1 0x010 = 0 := by decide +kernel

/-- R65, R173: WRITE_TO_READ has code 2. -/
theorem test_data_write_to_reader :
    (after (.dataWordWrite 2 0 15 1) (inSession store 2 .attached)).hostRead 2 0x014 = 0x00000002 := by decide +kernel

theorem test_latch_word_empties_fault :
    let s := after (.latchWord 2 0x40) (after (.dataWordWrite 2 0 0 1) (inSession store 2 .attached))
    s.hostRead 2 0x010 = 0 ∧ s.hostRead 2 0x014 = 0x0000FF00 := by decide +kernel

theorem test_mask_and_force_assert_interrupt :
    let s := after (.forceWord 0 0xFFFFFF88) (after (.maskWord 0 0x08) (inSession State.reset 0 .attached))
    s.interrupt 0 = true ∧ s.hostRead 0 0x010 = 0x08 ∧ s.hostRead 0 0x012 = 0 := by decide +kernel

theorem test_take_keeps_notify :
    let s := after (.take 1 0) (((inSession State.reset 1 .attached).appendRecord 1 (markRecord 1 0)).appendRecord 1 (markRecord 1 9))
    s.hostRead 1 0x020 = 0x01080001 ∧ s.hostRead 1 0x021 = 0x01010000 ∧ s.hostRead 1 0x010 = 1 := by decide +kernel

theorem test_windowWrite_param_and_status :
    (after (.windowWrite 0 4 0xFFFFFFFF) (inSession State.reset 0 .unattached)).hostRead 0 4 = 0xFFFFFFFF ∧
      (after (.windowWrite 0 5 0xFFFFFFFF) (inSession State.reset 0 .unattached)).hostRead 0 5 = 0 := by decide +kernel

theorem test_presence :
    (after (.presenceAsserted 3) State.reset).hostRead 3 0x013 = 0x03000001 ∧
      (after (.presenceDeasserted 3) (inSession State.reset 3 .attached)).hostRead 3 0x013 = 0x03000003 := by decide +kernel

/-- R43: the first OWR after device reset stages buffer 0; R166: a present port is UNATTACHED at once. -/
theorem test_deviceReset :
    let s := after .deviceReset (inSession store 2 .attached)
    s.freeList.head? = some 0 ∧ s.freeList.getLast? = some 383 ∧ s.hostRead 2 0x013 = 0x02000001 := by decide +kernel

theorem test_millisecondExpiry :
    let s := after .millisecondExpiry { State.reset with timeBase := 1999, phase := 999, owed := 0xFFFF }
    s.timeBase = 2000 ∧ s.phase = 0 ∧ s.owed = 0xFFFF ∧ s.granted = some .tick := by decide +kernel

/-- R96: entry 7's countdown of 5 and entry 8's of 2, under a tick of 2; entry 8's expiry falls into the tick. -/
theorem test_tick_lowers :
    let s := after .tick (ticking store 2)
    (s.entry 7).countdown = 3 ∧ (s.entry 8).countdown = 0 ∧ (s.entry 8).staleCount = 1 ∧ s.owed = 0 := by
  rw [after_tick 2 rfl rfl]; decide +kernel

/-- R97: the reader of the current buffer is flagged, the reader of the retired one is not. -/
theorem test_staleTransition_flags :
    let s := after .staleTransition (ticking (inSession (inSession store 2 .attached) 3 .attached) 5)
    (s.entry 7).state = .stale ∧ s.hostRead 3 0x048 = 0x00000321 ∧ s.hostRead 2 0x040 = 0x00000311 := by
  rw [after_tick (s := inSession (inSession store 2 .attached) 3 .attached) 5 rfl (by rw [exec, execStaleTransition, expires 7 (by decide +kernel)]; rfl)]; decide +kernel

theorem test_emptyExpiry_reports_version_0 :
    (after .emptyExpiry (ticking { store with timeBase := 6 } 2)).nuInput =
      [.entry { kind := .stale, entry := 8, version := 0, time := 6, origin := none }] := by
  rw [after_tick (s := { store with timeBase := 6 }) 2 rfl (by rw [exec, execEmptyExpiry, expires 8 (by decide +kernel)]; rfl)]; decide +kernel

/-- R160: P1's REF (code 11h) finds the store idle and is granted at its arrival; P0's CLS (14h) then waits, and a tick after it
goes first at the next grant. -/
theorem test_grant_at_arrival :
    let s := after (.commandArrival 0 0x14) (after (.commandArrival 1 0x11) (inSession (inSession State.reset 0 .attached) 1 .attached))
    s.granted = some (.port 1) ∧ (after (.cls 0) s).hostRead 0 0x005 = 0x01 ∧ (after (.ref 1) s).granted = some (.port 0) ∧
      (after (.ref 1) (after .millisecondExpiry s)).granted = some .tick := by decide +kernel

/-- R59, R43: the first OWR after device reset takes buffer 0; here the head is 5. R31: COPY keeps the length. -/
theorem test_owr_takes_head :
    let s := after (.owr 0) (standing store 0 (.owr 40 6 false) .store (answered 7 both))
    (s.aperture 0 6).stages = some 5 ∧ s.freeList.head? = some 6 ∧ s.hostRead 0 0x058 = 0x00000302 := by decide +kernel

theorem test_owr_duplicate :
    (after (.owr 1) (standing store 1 (.owr 40 6 false) .store (answered 7 both))).hostRead 1 0x005 = 0x0C := by decide +kernel

/-- R53: buffer 1 has two holds after the second reader. -/
theorem test_ord_pins :
    let s := after (.ord 0) (standing store 0 (.ord 1 zeros) .store (answered 7 readOnly))
    (s.buffer 1).holds = 2 ∧ s.hostRead 0 0x042 = 2 := by decide +kernel

/-- R52: aperture 0 passes and aperture 1 names an EMPTY entry: EMPTY at member 1, and nothing opened. -/
theorem test_ord_fails_whole :
    let s := after (.ord 0) (standing store 0 (.ord 3 zeros) .store ((answered 7 readOnly).set 1 (some (8, readOnly))))
    s.hostRead 0 0x005 = 0x09 ∧ s.hostRead 0 0x006 = 1 ∧ s.aperture 0 0 = .closed := by decide +kernel

/-- R56, Table 2-5 step 7: the retired buffer joins the tail and the reader moves to the current one. -/
theorem test_ref_moves :
    let s := after (.ref 2) (standing store 2 (.ref 1) .store)
    s.freeList.getLast? = some 0 ∧ (s.buffer 1).holds = 2 ∧ s.hostRead 2 0x040 = 0x00000301 := by decide +kernel

/-- R61, R36: the reader of a current buffer leaves it CURRENT. -/
theorem test_cls_keeps_current :
    let s := after (.cls 3) (standing store 3 (.cls 0xFF) .store)
    s.buffer 1 = { state := .current 7, holds := 0 } ∧ s.freeList.length = 379 := by decide +kernel

/-- R76, R77: the held old buffer is retired, the version rises and the reader is UPDATED. -/
theorem test_pub_retires_held_buffer :
    let s := after (.pub 1) (standing { store with timeBase := 9 } 1 (.pub 1 true false) .store (answered 7 both))
    s.buffer 1 = { state := .retired, holds := 1 } ∧ (s.entry 7).current = some 2 ∧ s.hostRead 1 0x008 = 3 ∧
      (s.aperture 3 2) = .reading onSeven 1 2 20 { updated := true, stale := false, gone := false } := by decide +kernel

/-- R72: the lowest grant now gives READ alone. -/
theorem test_pub_revoked :
    (after (.pub 1) (standing store 1 (.pub 1 false false) .store (answered 7 readOnly))).hostRead 1 0x005 = 0x10 := by
  decide +kernel

/-- R170: an INS of an UNDEFINED entry. -/
theorem test_ins_undefined :
    let s := after (.ins 0) (standing store 0 (.ins 0) .store (answered 30 readOnly))
    s.hostRead 0 0x006 = 0x0000001E ∧ s.hostRead 0 0x007 = 0xFFFF0000 ∧ s.hostRead 0 0x009 = 0x0000FFFF := by decide +kernel

/-- R41: 379 free, 2 staged, 2 current, 1 retired, threshold 16, head 5. -/
theorem test_pst :
    let s := after (.pst 0) (standing store 0 .pst .store)
    [6, 7, 8, 9, 10, 11].map (fun o => s.hostRead 0 o) = [379, 2, 2, 1, 16, 5] := by decide +kernel

/-- R122: no grant. R123: the kinds set becomes the subscription. -/
theorem test_sub :
    let ks : Kinds := { published := true, stale := false, withdrawn := false, defined := false }
    let s := { standing State.reset 2 (.sub 0 ks true) .notify (answered 511 readOnly) with nuInput := [.sub 2] }
    (after (.sub 2) s).hostRead 2 0x006 = 511 ∧ ((after (.sub 2) s).subscription 2 511).coalesce = true ∧
      (after (.sub 2) { standing State.reset 2 (.sub 0 ks true) .notify with nuInput := [.sub 2] }).hostRead 2 0x005 = 6 := by
  decide +kernel

/-- R135: the first MARK after device reset has sequence 0. -/
theorem test_mrk :
    let s := after (.mrk 2) { standing State.reset 2 .mrk .notify with nuInput := [.mark 2] }
    s.hostRead 2 0x006 = 1 ∧ s.hostRead 2 0x020 = 0x01080000 := by decide +kernel

/-- R139, Table 8-2: a second port waits at place 1. -/
theorem test_cla_queues :
    (after (.cla 1) { standing State.reset 1 (.cla true) .claim with holder := some 3 }).hostRead 1 0x006 = 0x00000103 := by
  decide +kernel

/-- R141: the claim passes to the oldest waiter. -/
theorem test_rel_passes :
    let s := after (.rel 3) { standing State.reset 3 .rel .claim with holder := some 3, waiters := [2, 0] }
    s.holder = some 2 ∧ s.waiters = [0] ∧ s.hostRead 3 0x006 = 2 ∧ (s.port 0).notices = [.claimMove] := by decide +kernel

/-- R14: generation 5 after the definition that had 4 was withdrawn; R14: the grace is the first countdown. -/
theorem test_def :
    let s := after (.define 0) (standing (store.setEntry 8 (Entry.undefinedWith 4)) 0 (.define 8 16 4 100 30) .store)
    s.hostRead 0 0x006 = 5 ∧ (s.entry 8).countdown = 30 ∧ (s.entry 8).state = .empty := by decide +kernel

/-- R18: the reader's buffer is retired, the reader is GONE and the writer ORPHANED. -/
theorem test_wdr :
    let s := after (.wdr 0) (standing store 0 (.wdr 7) .store)
    (s.buffer 1).state = .retired ∧ s.aperture 1 0 = .orphaned onSeven 2 2 ∧
      s.aperture 3 2 = .reading onSeven 1 2 20 { updated := false, stale := false, gone := true } ∧
      s.entry 7 = Entry.undefinedWith 1 := by decide +kernel

theorem test_sfr_stale_keeps_zero :
    (after (.sfr 0) (standing store 0 (.sfr 9 80 5) .store)).entry 9 = { entryNine with period := 80, grace := 5 } := by
  decide +kernel

theorem test_spt_bounds :
    (after (.spt 0) (standing store 0 (.spt 383) .store)).threshold = 383 ∧
      (after (.spt 0) (standing store 0 (.spt 384) .store)).hostRead 0 0x005 = 5 := by decide +kernel

/-- R118, R119, Table 10-5. -/
theorem test_sgr_then_rgr :
    let s := after (.sgr 0) (standing State.reset 0 (.sgr 3 7 512 3584 0 readOnly) .access)
    let t := after (.rgr 1) (standing s 1 (.rgr 3 7) .access)
    t.hostRead 1 0x006 = 0x00000101 ∧ t.hostRead 1 0x007 = 0x02000E00 := by decide +kernel

/-- R117: one local number too many. -/
theorem test_sgr_refused :
    (after (.sgr 0) (standing State.reset 0 (.sgr 3 7 512 3585 0 readOnly) .access)).hostRead 0 0x005 = 5 := by decide +kernel

theorem test_teardown_steps :
    let s := after (.teardownSc 1) (granting (inSession store 1 (.teardown .store)) 1)
    let t := after (.teardownCu 1) { s with holder := some 1, waiters := [3] }
    let u := after (.teardownNu 1) { t with nuInput := [.teardown 1] }
    s.freeList.drop 379 = [2, 3] ∧ t.holder = some 3 ∧ (u.port 1).session = .teardown .depart ∧
      (after (.departure 1) u).hostRead 1 0x013 = 0x01000001 := by decide +kernel

/-- R126, R129: the unread record of the same number takes the second report. -/
theorem test_entryReport_coalesces :
    let ks : Kinds := { published := true, stale := false, withdrawn := false, defined := false }
    let g : Grant := { enabled := true, localBase := 40, count := 1, globalBase := 7, rights := readOnly }
    let r (v : Version) : NuItem := .entry { kind := .published, entry := 7, version := v, time := 3, origin := some 1 }
    let s := { ((inSession store 2 .attached).setGrant 2 0 g).setSubscription 2 7 { kinds := ks, coalesce := true } with
      nuInput := [r 3, r 4] }
    let t := after .entryReport (after .entryReport s)
    t.hostRead 2 0x020 = 0x02010000 ∧ t.hostRead 2 0x021 = 0x01010028 ∧ t.hostRead 2 0x022 = 4 := by decide +kernel

/-- R127: the port that attached is not told. -/
theorem test_portReport :
    let s := after .portReport { inSession (inSession State.reset 0 .attached) 1 .attached with nuInput := [.port (.attached 0 5)] }
    s.hostRead 1 0x020 = 0x01050000 ∧ s.hostRead 0 0x020 = 0 := by decide +kernel

theorem test_notices_latch :
    let s := (inSession State.reset 1 .attached).updatePort 1 fun pi =>
      { pi with notices := [.peer 0, .claimMove], crossings := 1 }
    (after (.crossing 1) (after (.claimMove 1) (after (.peerNotice 1) s))).hostRead 1 0x010 = 0x38 ∧
      (after (.peerNotice 1) (inSession s 1 .unattached)).hostRead 1 0x010 = 0 := by decide +kernel

/-- R175: at the teardown of the claim's holder, CLAIM is set at the other ports before PEER can be. -/
theorem test_claim_before_peer :
    let s := { inSession (inSession State.reset 0 .attached) 1 (.teardown .claim) with holder := some 1 }
    let t := after (.departure 1) (after (.teardownNu 1) { after (.teardownCu 1) s with nuInput := [.teardown 1] })
    (after (.peerNotice 0) t).hostRead 0 0x010 = 0 ∧ (after (.peerNotice 0) (after (.claimMove 0) t)).hostRead 0 0x010 = 0x18 := by
  decide +kernel

theorem test_overflowClear :
    let s := ((inSession State.reset 1 .attached).setRing 1 { records := [], seq := 9, lost := 4 }).updatePort 1 fun pi =>
      { pi with overflowClears := 1 }
    (after (.overflowClear 1) s).hostRead 1 0x025 = 0 ∧ s.hostRead 1 0x025 = 4 := by decide +kernel

/-- R38: a fall from the threshold to below it is a crossing. -/
theorem test_crossing_is_handed :
    ((after (.owr 0) (standing { store with threshold := 379 } 0 (.owr 40 6 true) .store (answered 7 both))).port 3).crossings = 1 ∧
      ((after (.owr 0) (standing { store with threshold := 380 } 0 (.owr 40 6 true) .store (answered 7 both))).port 3).crossings = 0 := by
  decide +kernel

/-! ### A state for the hypotheses of each statement

`slotted req k ans` is the command that `standing` puts in the slot; `turn` and `stands` read off the model's own functions that
its turn has come. -/

/-- The command in the slot of `standing`. -/
def slotted (req : Request) (k : Stage) (ans : Vector Answer 8 := noAnswers) : Pending :=
  { req := req, stage := k, locals := noLocals, answers := ans }

theorem turn {s : State} {p : Port} {c : Pending} (h : s.storeCommand p = some c) : s.storeTurn p c :=
  (storeCommand_eq_some s p c).mp h

theorem stands {s : State} {p : Port} {k : Stage} {c : Pending} (h : s.commandAt p k = some c) : s.standsAt p c k :=
  (commandAt_eq_some s p k c).mp h

/-- Whether a command answers a next state. -/
def answersNext (c : Instr) (s : State) : Bool :=
  match exec c s with
  | .next _ => true
  | _ => false

theorem next_of {c : Instr} {s : State} (h : answersNext c s = true) : ∃ t, exec c s = .next t := by
  unfold answersNext at h
  split at h
  · exact ⟨_, by assumption⟩
  · cases h

theorem pool_of_ports {s : State} (h : s.PoolOk) (ports : Vector PortIf 4) (g : Option Requester) (l : Port) :
    State.PoolOk { s with ports := ports, granted := g, lastGranted := l } :=
  ⟨h.freeNodup, h.free, h.staged, h.current, h.holds, h.retiredHeld, h.unheld⟩

theorem bindings_of_ports {s : State} (h : s.BindingsOk) (ports : Vector PortIf 4) (g : Option Requester) (l : Port) :
    State.BindingsOk { s with ports := ports, granted := g, lastGranted := l } :=
  ⟨h.readers, h.writers, h.apart⟩

theorem store_catalog : store.CatalogOk := by
  intro e
  rw [store_entry]
  split_ifs
  · simp [Entry.Ok, entryNine, entrySeven]
  · simp [Entry.Ok, entryEight, Entry.undefinedWith]
  · simp [Entry.Ok, entrySeven]
  · simp [Entry.Ok, Entry.undefinedWith]

theorem store_apertures (p : Port) (a : ApIdx) : store.aperture p a =
    if p = 1 ∧ a = 0 then .writing onSeven 2 2
    else if p = 1 ∧ a = 5 then .orphaned { localNo := 41, entry := 30, generation := 0, length := 2 } 3 0
    else if p = 2 ∧ a = 0 then .reading onSeven 0 1 10 { updated := true, stale := false, gone := false }
    else if p = 3 ∧ a = 2 then .reading onSeven 1 2 20 { updated := false, stale := false, gone := false }
    else .closed := by
  revert p a; decide +kernel

theorem store_bindings : store.BindingsOk where
  readers p a b buf v t f h := by
    rw [store_apertures] at h
    split_ifs at h <;> simp only [Aperture.reading.injEq] at h
    all_goals
      obtain ⟨rfl, rfl, rfl, rfl, rfl⟩ := h
      simp [State.ReaderOk, store_entry, store_buffer, onSeven, entrySeven]
  writers p a b buf v h := by
    rw [store_apertures] at h
    split_ifs at h with h1
    simp only [Aperture.writing.injEq] at h
    obtain ⟨rfl, rfl, rfl⟩ := h
    simp [State.WriterOk, store_entry, onSeven, entrySeven]
  apart := by
    intro p a a' e h1 h2 h3 h4
    have key : ∀ p a a', (store.aperture p a).stages.isSome → (store.aperture p a').stages.isSome →
        (store.aperture p a).binding.map Binding.entry = (store.aperture p a').binding.map Binding.entry → a = a' := by
      decide +kernel
    exact key p a a' h1 h2 (h3.trans h4.symm)

theorem store_storeOk : store.StoreOk :=
  ⟨store_catalog, store_pool, Memory.nil_wf⟩

theorem store_tails : store.TailsOk :=
  ⟨fun _ b w _ _ => Memory.readWord_nil b w, fun _ _ _ b w _ _ _ => Memory.readWord_nil b w⟩

theorem witness_StepRunsFrontCommand : { State.reset with pending := [.nop 0] }.pending = .nop 0 :: [] := rfl

theorem witness_TimePasses :
    State.reset.pending = [] ∧ State.reset.phase.val ≠ 999 ∧
      ({ State.reset with phase := 999 }.pending = [] ∧ { State.reset with phase := 999 }.phase.val = 999) := by decide +kernel

/-- Countdowns just above the owed count and at it. -/
theorem witness_Tick :
    (ticking store 4).granted = some .tick ∧ (ticking store 4).dueAt 7 = false ∧ (ticking store 5).dueAt 7 = true ∧
      (store.entry 7).state = .current ∧ (ticking store 5).dueAt 30 = false := by decide +kernel

theorem witness_Expiries :
    (ticking store 5).granted = some .tick ∧ ((ticking store 5).dueAt 7 = true ∧ (store.entry 7).state = .current) ∧
      ((ticking store 5).dueAt 8 = true ∧ (store.entry 8).state = .empty) := by decide +kernel

/-- The hypotheses of each clause: a grant to another, an idle store with requests waiting and with none, an arrival, a command and
a teardown that end, and a tick that ends. -/
theorem witness_Arbiter :
    (let s := { standing (standing store 3 .pst .store) 0 .pst .store with tickWaiting := true }
     (s.granted ≠ some (.port 3) ∧ Instr.pst 3 ∈ Instr.teardownSc 3 :: storeRows 3 ∧ s.granted ≠ some .tick) ∧
      { s with granted := none }.granted = none ∧ s.tickWaiting = true ∧ (s.port 3).waitsForStore = true ∧
      s.storeTurn 0 (slotted .pst .store) ∧ s.lastGranted = 0 ∧ Request.row 0 .pst ∈ storeRows 0 ∧
      (∃ t, exec (Request.row 0 .pst) s = .next t)) ∧
      (let s := { inSession (standing store 3 .pst .store) 0 (.teardown .store) with granted := none }
       s.tickWaiting = false ∧ (s.port 3).waitsForStore = true ∧
        ∀ q, (s.port q).waitsForStore = true → { s with lastGranted := 2 }.rotationPlace 3 ≤ { s with lastGranted := 2 }.rotationPlace q) ∧
      (let s := { inSession store 1 .attached with holder := some 1 }
       s.granted = none ∧ s.tickWaiting = false ∧ (∀ q, (s.port q).waitsForStore = false) ∧ (s.port 1).slot = none ∧
        (s.port 1).session = .attached ∧ decodeRequest 0x114 (s.port 1).params = .cls 1 ∧
        decodeRequest 0x41 (s.port 1).params = .wdr 0) ∧
      (let s := granting (inSession (standing store 3 .pst .store) 1 (.teardown .store)) 1
       s.granted = some (.port 1) ∧ s.lastGranted = 1 ∧ (s.port 1).session = .teardown .store ∧ s.tickWaiting = false ∧
        (s.port 3).waitsForStore = true ∧ ∃ t, exec (.teardownSc 1) s = .next t) ∧
      let s := ticking (standing store 3 .pst .store) 5
      s.granted = some .tick ∧ (s.port 3).waitsForStore = true ∧ ∃ t, exec .tick s = .next t :=
  ⟨⟨by decide +kernel, rfl, rfl, by decide +kernel, turn (by decide +kernel), rfl, by decide, next_of (by decide +kernel)⟩,
    by decide +kernel, by decide +kernel, ⟨by decide +kernel, by decide +kernel, by decide +kernel, by decide +kernel,
      by decide +kernel, next_of (by decide +kernel)⟩, by decide +kernel, by decide +kernel, ⟨_, rfl⟩⟩

theorem witness_StoreEventEnds :
    (store.threshold.val ≤ store.freeList.length ∧ ¬store.freeList.length < store.threshold.val) ∧
      ((inSession State.reset 0 (.teardown .await)).port 0).session = .teardown .await ∧
      ((inSession State.reset 0 .attached).port 0).session ≠ .teardown .await := by decide +kernel

/-- The hypothesis of each clause, at a state with no work, and with a command at another place of its path. -/
theorem witness_RowsWithoutWaitingWork :
    (State.reset.port 0).slot = none ∧ State.reset.nuInput = [] ∧ State.reset.granted ≠ some .tick ∧
      ((ticking store 2).granted = some .tick ∧ ∀ e, (ticking store 2).dueAt e = true → (store.entry e).state ≠ .current) ∧
      (State.reset.port 0).session = .offline ∧ (State.reset.port 0).notices = [] ∧ (State.reset.port 0).crossings = 0 ∧ (State.reset.port 0).overflowClears = 0 ∧
      ((standing State.reset 0 .pst .translate).port 0).slot = some (slotted .pst .translate) := by
  refine ⟨by decide +kernel, by decide +kernel, by decide +kernel, ⟨rfl, fun e => ?_⟩, by decide +kernel⟩
  change (ticking { store with catalog := store.catalog } 2).dueAt e = true → _
  unfold State.dueAt
  change (((store.entry e).state = .empty || (store.entry e).state = .current) && _ && _) = true → _
  rw [store_entry]
  revert e
  decide +kernel

/-- An ORD and an MRK, a DEF by the holder, and an ATT in UNATTACHED. -/
theorem witness_ArrivalTakesTheSlot :
    (let s := { inSession State.reset 0 .attached with holder := some 0 }
     (s.port 0).slot = none ∧ (s.port 0).session = .attached ∧ s.holder = some 0 ∧
      decodeRequest 0x110 (s.port 0).params = .ord 1 zeros ∧ decodeRequest 0x21 (s.port 0).params = .mrk ∧
      decodeRequest 0x40 (s.port 0).params = .define 0 0 0 0 0) ∧
      (let s := inSession State.reset 3 .unattached
       (s.port 3).slot = none ∧ (s.port 3).session = .unattached ∧ decodeRequest 0x01 (s.port 3).params = .att) := by
  decide +kernel

theorem witness_ArrivalRefused :
    (State.reset.port 0).slot = none ∧ (State.reset.port 0).session = .offline ∧
      (let s := inSession State.reset 0 .unattached
       (s.port 0).slot = none ∧ (s.port 0).session = .unattached ∧ decodeRequest 0 (s.port 0).params ≠ .att) ∧
      (let s := inSession State.reset 0 (.teardown .claim)
       (s.port 0).slot = none ∧ (s.port 0).session = .teardown .claim) ∧
      (let s := { inSession State.reset 0 .attached with holder := some 1, waiters := [0] }
       (s.port 0).slot = none ∧ (s.port 0).session = .attached ∧ s.holder ≠ some 0 ∧
        (decodeRequest 0x50 (s.port 0).params).isConfiguration = true) := by decide +kernel

theorem witness_Overrun :
    ((standing State.reset 0 .nop .atPort).port 0).slot = some (slotted .nop .atPort) ∧
      ((standing State.reset 0 .nop .atPort).port 0).session ≠ .offline := by decide +kernel

theorem witness_Translations : (standing State.reset 0 (.ins 4095) .translate).standsAt 0 (slotted (.ins 4095) .translate) .translate :=
  stands (by decide +kernel)

/-- Legal grants, one of them up to local number 4095 and global id 511. -/
theorem witness_TranslationTakesTheLowestGrant :
    let gs : Vector Grant 8 := (Vector.replicate 8 Grant.disabled).set 2
      { enabled := true, localBase := 4094, count := 2, globalBase := 510, rights := readOnly }
    (∀ i : Fin 8, gs[i].Ok) ∧ translate gs 4095 = some (511, readOnly) ∧ reverseTranslate gs 510 = some 4094 := by
  refine ⟨?_, by decide +kernel, by decide +kernel⟩
  intro i
  have h : (if ((Vector.replicate 8 Grant.disabled).set 2
      { enabled := true, localBase := 4094, count := 2, globalBase := 510, rights := readOnly })[i].enabled then
      (decide (i = 2)) else decide (i ≠ 2)) = true := by revert i; decide +kernel
  fin_cases i <;> simp [Grant.Ok, Grant.disabled, readOnly]

theorem witness_PortInterface :
    (standing State.reset 0 .nop .atPort).standsAt 0 (slotted .nop .atPort) .atPort ∧
      (standing State.reset 0 (.bad 0x52) .atPort).standsAt 0 (slotted (.bad 0x52) .atPort) .atPort ∧
      (standing State.reset 0 .rtm .atPort).standsAt 0 (slotted .rtm .atPort) .atPort :=
  ⟨stands (by decide +kernel), stands (by decide +kernel), stands (by decide +kernel)⟩

theorem witness_AttachAndDetach :
    ((inSession (standing State.reset 0 .att .atPort) 0 .unattached).standsAt 0 (slotted .att .atPort) .atPort ∧
        ((inSession (standing State.reset 0 .att .atPort) 0 .unattached).port 0).session = .unattached) ∧
      (standing State.reset 0 .att .atPort).standsAt 0 (slotted .att .atPort) .atPort ∧
      (standing State.reset 0 .det .atPort).standsAt 0 (slotted .det .atPort) .atPort ∧
      (inSession (standing State.reset 0 .det .atPort) 0 (.teardown .await)).standsAt 0 (slotted .det .atPort) .atPort ∧
      ((standing State.reset 0 .att .atPort).port 0).session ≠ .unattached :=
  ⟨⟨stands (by decide +kernel), by decide +kernel⟩, stands (by decide +kernel), stands (by decide +kernel),
    stands (by decide +kernel), by decide +kernel⟩

theorem witness_Presence :
    (State.reset.port 0).session = .offline ∧ ((inSession State.reset 0 .unattached).port 0).session = .unattached ∧
      ((inSession State.reset 0 .attached).port 0).session = .attached ∧
      ((inSession State.reset 0 (.teardown .depart)).port 0).session = .teardown .depart := by decide +kernel

theorem witness_TeardownCloses :
    let s := granting (inSession store 1 (.teardown .store)) 1
    s.PoolOk ∧ s.granted = some (.port 1) ∧ (s.port 1).session = .teardown .store :=
  ⟨pool_of_ports store_pool _ _ _, rfl, by decide +kernel⟩

theorem witness_TeardownReleases :
    (let s := { inSession State.reset 1 (.teardown .claim) with holder := some 1, waiters := [3, 0] }
     (s.port 1).session = .teardown .claim ∧ s.holder = some 1) ∧
      (let s := { inSession State.reset 1 (.teardown .claim) with holder := some 0, waiters := [1] }
       (s.port 1).session = .teardown .claim ∧ s.holder ≠ some 1) ∧
      (let s := { inSession State.reset 1 (.teardown .notify) with nuInput := [.teardown 1, .mark 0] }
       (s.port 1).session = .teardown .notify ∧ s.nuInput = .teardown 1 :: [.mark 0]) := by decide +kernel

theorem witness_Departure :
    (let s := inSession State.reset 1 (.teardown .depart)
     (s.port 1).session = .teardown .depart ∧ (s.port 1).presence = true ∧ (s.port 1).slot = none) ∧
      (let s := inSession (standing State.reset 1 .det .detach) 1 (.teardown .depart)
       (s.port 1).session = .teardown .depart ∧ (s.port 1).presence = true ∧ (s.port 1).slot ≠ none) ∧
      (let s := after (.presenceDeasserted 1) (inSession State.reset 1 (.teardown .depart))
       (s.port 1).session = .teardown .depart ∧ (s.port 1).presence = false) := by decide +kernel

theorem witness_Notices :
    let s (n : Notice) := (inSession State.reset 1 .attached).updatePort 1 fun pi => { pi with notices := [n], crossings := 1 }
    ((s (.peer 0)).port 1).notices = .peer 0 :: [] ∧ ((s .claimMove).port 1).notices = .claimMove :: [] ∧
      ((s .claimMove).port 1).crossings = 0 + 1 := by decide +kernel

theorem witness_WindowWrites :
    windowWord 0x004 = .param 3 ∧ ((inSession State.reset 0 .attached).port 0).session ≠ .offline ∧ windowWord 0x005 = .status ∧
      windowWord 0x00F = .result 9 ∧ windowWord 0x013 = .session ∧ windowWord 0x014 = .faultRecord ∧ windowWord 0x025 = .head 5 ∧
      windowWord 0x05F = .apStatus 7 3 ∧ windowWord 0x060 = .unused ∧ windowWord 0x000 = .command ∧ windowWord 0x010 = .latch ∧
      windowWord 0x011 = .mask ∧ windowWord 0x012 = .force ∧ windowWord 0x026 = .take ∧ windowWord 0x0FF = .apData 7 15 := by
  decide +kernel

theorem witness_OfflineWindow : (State.reset.port 3).session = .offline := by decide +kernel

theorem witness_RequestWords : (Request.sgr 255 7 513 4096 512 both).wellFormed = true ∧ (Request.bad 0x53).wellFormed = true := by
  decide +kernel

/-- Two words of PUB that differ above bit 17, and two parameter words of OWR that differ in bit 19. -/
theorem witness_UnusedBits :
    (Word.code 0x00040113 = Word.code 0xFFFC0113 ∧ (0x00040113#32 &&& 0x3FF00) = 0x00000100 ∧
        (0xFFFC0113#32 &&& 0x3FF00) = 0x00000100) ∧
      ((0x00080FFF#32 &&& 0x01070FFF) = (0x00000FFF#32 &&& 0x01070FFF)) := by decide +kernel

/-- At the last word below the length and at the length, through a WRITING and an ORPHANED aperture. -/
theorem witness_DataWriteStores :
    let s := inSession store 1 .attached
    s.mem.wf ∧ (s.port 1).session ≠ .offline ∧ (s.port 1).inFlight 0 = false ∧ (s.port 1).inFlight 5 = false ∧
      s.aperture 1 0 = .writing onSeven 2 2 ∧ (2 : WordIdx).val < onSeven.length.val ∧ onSeven.length.val ≤ (3 : WordIdx).val ∧
      s.aperture 1 5 = .orphaned { localNo := 41, entry := 30, generation := 0, length := 2 } 3 0 :=
  ⟨Memory.nil_wf, by decide +kernel, by decide +kernel, by decide +kernel, by decide +kernel, by decide, by decide,
    by decide +kernel⟩

theorem witness_DataWriteFaults :
    (let s := standing store 1 (.pub 1 false false) .store
     (s.port 1).session ≠ .offline ∧ (s.port 1).inFlight 0 = true) ∧
      (let s := inSession store 2 .attached
       (s.port 2).session ≠ .offline ∧ (s.port 2).inFlight 0 = false ∧ (s.aperture 2 0).stages = none ∧
        (s.aperture 2 7).stages = none) := by decide +kernel

theorem witness_HostWrites : ((inSession store 2 .attached).port 2).session ≠ .offline := by decide +kernel

theorem witness_WindowReads :
    let s := { (inSession store 2 .attached).appendRecord 2 (markRecord 2 5) with holder := some 0, waiters := [1, 2, 3] }
    (s.port 2).session ≠ .offline ∧ s.ClaimOk ∧ (s.ring 2).records = [{ markRecord 2 5 with seq := 0 }] ∧ (s.ring 0).records = [] :=
  ⟨by decide +kernel, ⟨by decide +kernel, by decide +kernel, by decide +kernel⟩, by decide +kernel, by decide +kernel⟩

/-- The last id, the shortest and the longest length, the last port and SHARED as producer. -/
theorem witness_Define :
    ((standing State.reset 0 (.define 511 1 3 0 0) .store).storeTurn 0 (slotted (.define 511 1 3 0 0) .store) ∧
        (511#16).toNat = (511 : EntryId).val ∧ (1#8).toNat = (1 : Fin 17).val ∧ 1 ≤ (1 : Fin 17).val ∧ (3#8).toNat = (3 : Port).val ∧
        (State.reset.entry 511).state = .undefined) ∧
      (standing State.reset 0 (.define 0 16 4 1 0) .store).storeTurn 0 (slotted (.define 0 16 4 1 0) .store) ∧
      (16#8).toNat = (16 : Fin 17).val :=
  ⟨⟨turn (by decide +kernel), by decide, by decide, by decide, by decide, by decide +kernel⟩, turn (by decide +kernel), by decide⟩

/-- An entry whose buffer is held, one whose buffer is not, and one without a buffer. -/
theorem witness_Withdraw :
    ((standing store 0 (.wdr 7) .store).storeTurn 0 (slotted (.wdr 7) .store) ∧ (7#16).toNat = (7 : EntryId).val ∧
        (store.entry 7).state ≠ .undefined ∧ (store.entry 7).current = some 1 ∧ 0 < (store.buffer 1).holds) ∧
      ((store.entry 9).current = some 4 ∧ (store.buffer 4).holds = 0) ∧
      (store.entry 8).state ≠ .undefined ∧ (store.entry 8).current = none :=
  ⟨⟨turn (by decide +kernel), by decide, by decide +kernel, by decide +kernel, by decide +kernel⟩, by decide +kernel,
    by decide +kernel⟩

theorem witness_SetFreshness :
    (standing store 0 (.sfr 8 0 0xFFFF) .store).storeTurn 0 (slotted (.sfr 8 0 0xFFFF) .store) ∧
      (8#16).toNat = (8 : EntryId).val ∧ (store.entry 8).state = .empty ∧ (store.entry 7).state = .current ∧
      (store.entry 9).state = .stale :=
  ⟨turn (by decide +kernel), by decide, by decide +kernel⟩

/-- The first value beyond each range. -/
theorem witness_ConfigurationRefusals :
    (standing store 0 (.define 512 0 5 0 0) .store).storeTurn 0 (slotted (.define 512 0 5 0 0) .store) ∧
      (512 ≤ (512#16).toNat ∧ (0#8).toNat = 0 ∧ 16 < (17#8).toNat ∧ 4 < (5#8).toNat) ∧
      (standing store 0 (.define 7 16 4 0 0) .store).storeTurn 0 (slotted (.define 7 16 4 0 0) .store) ∧
      ¬(512 ≤ (7#16).toNat ∨ (16#8).toNat = 0 ∨ 16 < (16#8).toNat ∨ 4 < (4#8).toNat) ∧ (store.entry 7).state ≠ .undefined ∧
      (standing store 0 (.wdr 30) .store).storeTurn 0 (slotted (.wdr 30) .store) ∧ (store.entry 30).state = .undefined ∧
      (standing store 0 (.sfr 512 1 1) .store).storeTurn 0 (slotted (.sfr 512 1 1) .store) ∧
      (standing store 0 (.spt 384) .store).storeTurn 0 (slotted (.spt 384) .store) ∧ 384 ≤ (384#16).toNat ∧
      (standing store 0 (.sgr 4 8 513 4096 512 both) .access).standsAt 0 (slotted (.sgr 4 8 513 4096 512 both) .access) .access ∧
      (4 ≤ (4#8).toNat ∧ 8 ≤ (8#8).toNat ∧ 512 < (513#16).toNat ∧ 4095 < (4096#16).toNat ∧ 511 < (512#16).toNat) :=
  ⟨turn (by decide +kernel), by decide, turn (by decide +kernel), by decide, by decide +kernel, turn (by decide +kernel),
    by decide +kernel, turn (by decide +kernel), turn (by decide +kernel), by decide, stands (by decide +kernel), by decide⟩

theorem witness_Inspect :
    (standing store 0 (.ins 40) .store (answered 7 readOnly)).storeTurn 0 (slotted (.ins 40) .store (answered 7 readOnly)) ∧
      (answered 7 readOnly)[0] = some (7, readOnly) ∧ readOnly.read = true ∧ noAnswers[0] = none ∧
      ({ read := false, write := true } : Rights).read = false :=
  ⟨turn (by decide +kernel), by decide +kernel⟩

theorem witness_PoolCommands :
    (standing store 0 (.spt 383) .store).storeTurn 0 (slotted (.spt 383) .store) ∧ (383#16).toNat = (383 : BufId).val ∧
      (standing store 0 .pst .store).storeTurn 0 (slotted .pst .store) ∧ (standing store 0 .pst .store).PoolOk :=
  ⟨turn (by decide +kernel), by decide, turn (by decide +kernel), pool_of_ports store_pool _ _ _⟩

/-- A set of two members, on a CURRENT and a STALE entry. -/
theorem witness_OpenRead :
    let ans := (answered 7 both).set 7 (some (9, readOnly))
    (standing store 0 (.ord 0x81 zeros) .store ans).storeTurn 0 (slotted (.ord 0x81 zeros) .store ans) ∧
      ∀ a : ApIdx, (0x81#8).getLsbD a = true → store.aperture 0 a = .closed ∧
        ((ans[a] = some (7, both) ∧ (store.entry 7).state = .current ∧ (store.entry 7).current = some 1 ∧
            (store.entry 7).publishTime = some 20) ∨
          (ans[a] = some (9, readOnly) ∧ (store.entry 9).state = .stale ∧ (store.entry 9).current = some 4 ∧
            (store.entry 9).publishTime = some 20)) :=
  ⟨turn (by decide +kernel), by decide +kernel⟩

/-- One first failing member for each code of ORD and of REF. -/
theorem witness_ReadSetRefusals :
    ((standing store 3 (.ord 4 zeros) .store).storeTurn 3 (slotted (.ord 4 zeros) .store) ∧ (4#8).getLsbD 2 = true ∧
        store.aperture 3 2 ≠ .closed) ∧
      (let ans := (answered 7 both).set 1 (some (30, readOnly))
       (standing store 0 (.ord 3 zeros) .store ans).storeTurn 0 (slotted (.ord 3 zeros) .store ans) ∧
        (3#8).getLsbD 1 = true ∧ (∀ b : ApIdx, b < 1 → b = 0) ∧ store.aperture 0 0 = .closed ∧ ans[0] = some (7, both) ∧
        both.read = true ∧ (store.entry 7).state = .current ∧ store.aperture 0 1 = .closed ∧ ans[1] = some (30, readOnly) ∧
        (store.entry 30).state = .undefined ∧ (store.entry 8).state = .empty ∧ ans[2] = none) ∧
      ((standing store 2 (.ref 1) .store).storeTurn 2 (slotted (.ref 1) .store) ∧ (1#8).getLsbD 0 = true ∧
        (∀ m : ApIdx, ¬m < 0) ∧ store.aperture 0 0 = .closed ∧ (store.aperture 1 0).stages ≠ none ∧
        store.aperture 2 0 = .reading onSeven 0 1 10 { updated := true, stale := false, gone := false } ∧
        ((store.setEntry 7 (Entry.undefinedWith 1)).entry 7).state = .undefined ∧
        ((store.setEntry 7 { entryEight with generation := 1 }).entry 7).state = .empty) :=
  ⟨⟨turn (by decide +kernel), by decide, by decide +kernel⟩, ⟨turn (by decide +kernel), by decide +kernel⟩,
    turn (by decide +kernel), by decide +kernel⟩

theorem witness_Refresh :
    let s := standing store 2 (.ref 1) .store
    s.PoolOk ∧ s.storeTurn 2 (slotted (.ref 1) .store) ∧ (∀ a : ApIdx, (1#8).getLsbD a = true → a = 0) ∧
      s.aperture 2 0 = .reading onSeven 0 1 10 { updated := true, stale := false, gone := false } ∧
      (s.entry 7).state = .current ∧ (s.entry 7).generation = onSeven.generation ∧ (s.entry 7).current = some 1 ∧
      (s.entry 7).publishTime = some 20 :=
  ⟨pool_of_ports store_pool _ _ _, turn (by decide +kernel), by decide +kernel⟩

/-- On the last aperture, of a SHARED entry. -/
theorem witness_OpenWrite :
    let s := standing store 0 (.owr 40 7 false) .store (answered 7 both)
    s.mem.wf ∧ s.storeTurn 0 (slotted (.owr 40 7 false) .store (answered 7 both)) ∧ s.aperture 0 7 = .closed ∧
      both.write = true ∧ (s.entry 7).state ≠ .undefined ∧ (s.entry 7).producer = some .shared ∧
      (∀ a', (s.aperture 0 a').stages = none) ∧ s.freeList = 5 :: (List.finRange 384).drop 6 :=
  ⟨Memory.nil_wf, turn (by decide +kernel), by decide +kernel⟩

theorem witness_OpenWriteRefusals :
    (standing store 1 (.owr 40 0 false) .store (answered 7 both)).storeTurn 1 (slotted (.owr 40 0 false) .store (answered 7 both)) ∧
      (store.aperture 1 0 ≠ .closed ∧ store.aperture 1 1 = .closed ∧ noAnswers[0] = none ∧ readOnly.write = false ∧
        (store.entry 30).state = .undefined) ∧
      ((store.entry 8).producer = some (.port 1) ∧ (store.entry 8).producer ≠ some (.port 0) ∧
        (store.entry 8).producer ≠ some .shared) ∧
      ((store.aperture 1 0).stages ≠ none ∧ (store.aperture 1 0).binding.map Binding.entry = some 7) ∧
      { store with freeList := [] }.freeList = [] :=
  ⟨turn (by decide +kernel), by decide +kernel, by decide +kernel, by decide +kernel, rfl⟩

theorem witness_Close :
    let s := standing store 1 (.cls 0xFF) .store
    s.PoolOk ∧ s.storeTurn 1 (slotted (.cls 0xFF) .store) :=
  ⟨pool_of_ports store_pool _ _ _, turn (by decide +kernel)⟩

/-- With CONDITIONAL and RETAIN, so that every premise is asked. -/
theorem witness_Publish :
    let s := standing store 1 (.pub 1 true true) .store (answered 7 both)
    s.PoolOk ∧ s.BindingsOk ∧ s.mem.wf ∧ s.storeTurn 1 (slotted (.pub 1 true true) .store (answered 7 both)) ∧
      (∀ a : ApIdx, (1#8).getLsbD a = true → a = 0) ∧ s.aperture 1 0 = .writing onSeven 2 2 ∧
      (answered 7 both)[0] = some (onSeven.entry, both) ∧ both.write = true ∧ (s.entry 7).version = 2 ∧
      (members 1).length ≤ s.freeList.length :=
  ⟨pool_of_ports store_pool _ _ _, bindings_of_ports store_bindings _ _ _, Memory.nil_wf, turn (by decide +kernel), by decide +kernel⟩

/-- One first failing member for each code of PUB, and RETAIN with an empty free list. -/
theorem witness_PublishRefusals :
    (standing store 1 (.pub 0x21 true true) .store (answered 7 both)).storeTurn 1 (slotted (.pub 0x21 true true) .store (answered 7 both)) ∧
      ((∀ m : ApIdx, m < 5 → (0x21#8).getLsbD m = true → m = 0) ∧ store.aperture 1 0 = .writing onSeven 2 2 ∧
        (store.entry 7).generation = onSeven.generation ∧ (store.entry 7).version = 2 ∧
        store.aperture 1 5 = .orphaned { localNo := 41, entry := 30, generation := 0, length := 2 } 3 0) ∧
      ((store.aperture 1 1).stages = none ∧ noAnswers[0] = none ∧ readOnly.write = false) ∧
      ((store.setEntry 7 (Entry.undefinedWith 1)).entry 7).state = .undefined ∧
      ((store.setEntry 7 { entrySeven with version := 3 }).entry 7).version ≠ 2 ∧
      countUpTo 1 0 (fun _ => true) = { store with freeList := [] }.freeList.length + 1 :=
  ⟨turn (by decide +kernel), by decide +kernel⟩

/-- A run that ends at local number 4095 and global id 511. -/
theorem witness_GrantCommands :
    (standing State.reset 0 (.sgr 3 7 512 3584 0 both) .access).standsAt 0 (slotted (.sgr 3 7 512 3584 0 both) .access) .access ∧
      ((3#8).toNat = (3 : Port).val ∧ (7#8).toNat = (7 : GrantIdx).val ∧ (3584#16).toNat = (3584 : Fin 4096).val ∧
        (512#16).toNat = (512 : Fin 513).val ∧ (0#16).toNat = (0 : EntryId).val ∧ 3584 + 512 ≤ 4096 ∧ 0 + 512 ≤ 512) ∧
      (standing State.reset 0 (.sgr 0 0 0 0 0 both) .access).standsAt 0 (slotted (.sgr 0 0 0 0 0 both) .access) .access ∧
      (standing State.reset 0 (.rgr 3 7) .access).standsAt 0 (slotted (.rgr 3 7) .access) .access ∧
      (standing State.reset 0 (.rgr 4 8) .access).standsAt 0 (slotted (.rgr 4 8) .access) .access :=
  ⟨stands (by decide +kernel), by decide, stands (by decide +kernel), stands (by decide +kernel), stands (by decide +kernel)⟩

theorem witness_Subscribe :
    let ks : Kinds := { published := false, stale := false, withdrawn := false, defined := true }
    let s := { standing State.reset 2 (.sub 0 ks true) .notify (answered 511 readOnly) with nuInput := [.sub 2] }
    s.nuInput = .sub 2 :: [] ∧ s.standsAt 2 (slotted (.sub 0 ks true) .notify (answered 511 readOnly)) .notify ∧
      (answered 511 readOnly)[0] = some (511, readOnly) ∧ readOnly.read = true ∧ noAnswers[0] = none :=
  ⟨rfl, stands (by decide +kernel), by decide +kernel⟩

/-- A ring of 64 records. -/
def fullRing : Ring := { records := List.replicate 64 (markRecord 2 0), seq := 64, lost := 0xFFFF }

theorem witness_Mark :
    let s := { standing State.reset 2 .mrk .notify with nuInput := [.mark 2] }
    s.nuInput = .mark 2 :: [] ∧ s.standsAt 2 (slotted .mrk .notify) .notify ∧ (s.ring 2).records.length < 64 ∧
      (s.setRing 2 fullRing).standsAt 2 (slotted .mrk .notify) .notify ∧ ¬((s.setRing 2 fullRing).ring 2).records.length < 64 :=
  ⟨rfl, stands (by decide +kernel), by decide +kernel, stands (by decide +kernel), by decide +kernel⟩

/-- A candidate with a number, whose ring holds a record to coalesce into, and a port that is no candidate. -/
theorem witness_EntryReport :
    let ks : Kinds := { published := true, stale := false, withdrawn := false, defined := false }
    let r : EntryReport := { kind := .published, entry := 7, version := 3, time := 3, origin := some 1 }
    let s := { (((inSession store 2 .attached).setGrant 2 0
      { enabled := true, localBase := 40, count := 1, globalBase := 7, rights := readOnly }).setSubscription 2 7
        { kinds := ks, coalesce := true }).setRing 2 { records := [r.record 40 false], seq := 1, lost := 0 } with
      nuInput := [.entry r] }
    s.nuInput = .entry r :: [] ∧ (s.port 2).session = .attached ∧ (s.subscription 2 7).kinds.published = true ∧
      (s.subscription 2 7).coalesce = true ∧ reverseTranslate s.grants[2] 7 = some 40 ∧
      (s.ring 2).records = [] ++ r.record 40 false :: [] ∧ (s.port 0).session ≠ .attached := by decide +kernel

theorem witness_PortReport :
    let s := { inSession (inSession State.reset 0 .attached) 1 .attached with nuInput := [.port (.detached 0 5)] }
    s.nuInput = .port (.detached 0 5) :: [] ∧ (s.port 0).session = .attached ∧ (s.port 1).session = .attached ∧
      (s.port 2).session ≠ .attached := by decide +kernel

theorem witness_OverflowClear :
    let s := ((inSession State.reset 2 .attached).setRing 2 fullRing).updatePort 2 fun pi => { pi with overflowClears := 1 }
    (s.port 2).overflowClears = 1 ∧ (s.port 2).overflowRaised = false ∧ (s.port 2).hasLatch bitOverflow = false ∧
      64 ≤ (s.ring 2).records.length := by decide +kernel

/-- Claim free; held by the port; held by another port with the port waiting and not. -/
theorem witness_ClaimCommands :
    (let s := standing State.reset 1 (.cla true) .claim
     s.ClaimOk ∧ s.standsAt 1 (slotted (.cla true) .claim) .claim ∧ s.holder = none) ∧
      (let s := { standing State.reset 1 (.cla false) .claim with holder := some 0, waiters := [3, 2, 1] }
       s.ClaimOk ∧ s.standsAt 1 (slotted (.cla false) .claim) .claim ∧ (1 : Port) ∈ s.waiters) ∧
      (let s := { standing State.reset 1 (.cla true) .claim with holder := some 0, waiters := [3, 2] }
       s.ClaimOk ∧ s.standsAt 1 (slotted (.cla true) .claim) .claim ∧ (1 : Port) ∉ s.waiters) ∧
      (let s := { standing State.reset 1 .rel .claim with holder := some 1, waiters := [3, 2] }
       s.standsAt 1 (slotted .rel .claim) .claim ∧ s.holder = some 1) ∧
      (let s := { standing State.reset 1 .rel .claim with holder := some 0, waiters := [3, 1] }
       s.standsAt 1 (slotted .rel .claim) .claim ∧ s.holder ≠ some 1) :=
  ⟨⟨⟨by decide +kernel, by decide +kernel, by decide +kernel⟩, stands (by decide +kernel), rfl⟩,
    ⟨⟨by decide +kernel, by decide +kernel, by decide +kernel⟩, stands (by decide +kernel), by decide +kernel⟩,
    ⟨⟨by decide +kernel, by decide +kernel, by decide +kernel⟩, stands (by decide +kernel), by decide +kernel⟩,
    ⟨stands (by decide +kernel), rfl⟩, ⟨stands (by decide +kernel), by decide +kernel⟩⟩

/-- A part with open apertures, a claim held and waited for, a PUB at the arbiter, a SUB in the input order and the PUB's row at
the front of the queue. -/
def busy : State :=
  { standing (standing store 1 (.pub 1 false true) .store (answered 7 both)) 2
      (.sub 40 { published := true, stale := false, withdrawn := false, defined := false } true) .notify (answered 7 readOnly) with
    holder := some 0
    waiters := [3, 1]
    rings := State.reset.rings.set 3 { records := [{ markRecord 3 4 with seq := 6 }], seq := 7, lost := 0 }
    grants := State.reset.grants.set 1 ((Vector.replicate 8 Grant.disabled).set 0
      { enabled := true, localBase := 40, count := 1, globalBase := 7, rights := both })
    nuInput := [.sub 2]
    pending := [.pub 1] }

theorem busy_step : ∃ t, step busy = .next t := next_of (c := .pub 1) (s := { busy with pending := [] }) (by decide +kernel)

theorem witness_StoreInvariants :
    busy.StoreOk ∧ busy.BindingsOk ∧ busy.TailsOk ∧ (∃ t, step busy = .next t) ∧ busy.pending.head? ≠ some .deviceReset ∧
      (busy.buffer 0).state = .retired ∧ (busy.buffer 1).state = .current 7 :=
  ⟨⟨store_catalog, ⟨store_pool.freeNodup, store_pool.free, store_pool.staged,
      store_pool.current, store_pool.holds, store_pool.retiredHeld, store_pool.unheld⟩, Memory.nil_wf⟩,
    ⟨store_bindings.readers, store_bindings.writers, store_bindings.apart⟩, ⟨store_tails.entries, store_tails.apertures⟩,
    busy_step, by decide +kernel⟩

theorem busy_port (p : Port) : busy.port p =
    if p = 1 then (standing State.reset 1 (.pub 1 false true) .store (answered 7 both)).port 1
    else if p = 2 then (standing State.reset 2
      (.sub 40 { published := true, stale := false, withdrawn := false, defined := false } true) .notify (answered 7 readOnly)).port 2
    else PortIf.offline false := by
  revert p; decide +kernel

theorem witness_ClaimPortsAndGrants :
    busy.ClaimOk ∧ busy.PortsOk ∧ busy.GrantsOk ∧ ∃ t, step busy = .next t := by
  refine ⟨⟨by decide +kernel, by decide +kernel, by decide +kernel⟩, ?_, ?_, busy_step⟩
  · intro p
    rw [busy_port]
    split_ifs
    · exact ⟨⟨⟨rfl, fun c h => by cases h; decide⟩, by decide +kernel, by decide +kernel, by decide +kernel⟩, nofun⟩
    · exact ⟨⟨⟨rfl, fun c h => by cases h; decide⟩, by decide +kernel, by decide +kernel, by decide +kernel⟩, nofun⟩
    · exact ⟨⟨rfl, by decide +kernel, by decide +kernel, by decide +kernel⟩, nofun⟩
  · intro p i
    have h : ∀ p i, busy.grant p i = if p = 1 ∧ i = 0 then
        { enabled := true, localBase := 40, count := 1, globalBase := 7, rights := both } else Grant.disabled := by decide +kernel
    rw [h]
    split_ifs
    · simp [Grant.Ok, both]
    · simp [Grant.Ok, Grant.disabled]

theorem witness_EveryStepKeepsTheArbiter : busy.PortsOk ∧ busy.ArbiterOk ∧ ∃ t, step busy = .next t :=
  ⟨witness_ClaimPortsAndGrants.2.1, ⟨by decide +kernel, by decide +kernel, by decide +kernel⟩, busy_step⟩

theorem witness_RingsAndInput :
    (∀ p, (busy.ring p).Ok) ∧ busy.PortsOk ∧ busy.InputOk ∧ ∃ t, step busy = .next t := by
  refine ⟨?_, witness_ClaimPortsAndGrants.2.1, ⟨by decide +kernel, by decide +kernel, by decide +kernel⟩, busy_step⟩
  intro p
  have h : ∀ p, busy.ring p = if p = 3 then { records := [{ markRecord 3 4 with seq := 6 }], seq := 7, lost := 0 } else Ring.cleared := by
    decide +kernel
  rw [h]
  split_ifs
  · exact ⟨by decide +kernel, by decide +kernel, by decide +kernel⟩
  · exact ⟨by decide +kernel, by decide +kernel, by decide +kernel⟩

/-- A DEF that raises a generation, from a catalog whose entries hold the fields of their states. -/
theorem witness_OnlyTheirOwnEvents :
    store.CatalogOk ∧ (∃ t, exec (.define 0) (standing store 0 (.define 30 1 4 0 0) .store) = .next t) ∧
      Instr.define 0 ≠ .deviceReset :=
  ⟨store_catalog, next_of (by decide +kernel), by decide +kernel⟩

end Sys2Proof.Tests
end

section
/-! SUPPORT. The fields that pass between the blocks, and the fields that the blocks hold: which operations leave the held ones, and
what the Claim Unit's operations do to them. -/

namespace Sys2Proof.Machine

variable (s : State)

/-! ### The fields that a port's dealings do not reach -/

/-- The state with the Port Interfaces, the rings, the Notification Unit's input order and the arbiter's grant blanked out: equal
`held` states agree in every other field. -/
def State.held (s : State) : State :=
  { s with ports := State.reset.ports, rings := State.reset.rings, nuInput := [], granted := none, lastGranted := 0 }

@[simp] theorem held_setPort (p : Port) (x : PortIf) : (s.setPort p x).held = s.held := rfl
@[simp] theorem held_updatePort (p : Port) (f : PortIf → PortIf) : (s.updatePort p f).held = s.held := rfl
@[simp] theorem held_mapPorts (f : Port → PortIf → PortIf) : (s.mapPorts f).held = s.held := rfl
@[simp] theorem held_setRing (p : Port) (x : Ring) : (s.setRing p x).held = s.held := rfl
@[simp] theorem held_toNotify (x : NuItem) : (s.toNotify x).held = s.held := rfl
@[simp] theorem held_handPeerNotice (p : Port) : (s.handPeerNotice p).held = s.held := rfl
@[simp] theorem held_with_nuInput (l : List NuItem) : State.held { s with nuInput := l } = s.held := rfl

@[simp] theorem held_arbitrate : s.arbitrate.held = s.held := by rw [arbitrate_frame]; rfl

@[simp] theorem held_complete (p : Port) (st : Status) (rw : Results) : (s.complete p st rw).held = s.held := by
  rw [complete_frame]; rfl

@[simp] theorem held_finishStore (p : Port) (r : Answered) : (s.finishStore p r).held = r.1.held := by
  rw [finishStore_frame]; rfl

@[simp] theorem held_endStoreEvent (u : State) : (s.endStoreEvent u).held = u.held := by
  rw [endStoreEvent_frame]; rfl

@[simp] theorem held_appendRecord (p : Port) (x : Record) : (s.appendRecord p x).held = s.held := by
  rw [appendRecord_frame]; rfl

@[simp] theorem held_routeEntry (r : EntryReport) (p : Port) : (s.routeEntry r p).held = s.held := by
  unfold State.routeEntry State.deliver
  split
  · split
    · dsimp only
      split
      · rfl
      · exact held_appendRecord s p _
    · rfl
  · rfl

@[simp] theorem held_routePort (r : PortReport) (p : Port) : (s.routePort r p).held = s.held := by
  unfold State.routePort
  split
  · exact held_appendRecord s p _
  · rfl

/-- What every step of a fold keeps, the fold keeps. -/
theorem foldl_keeps {α β : Type} (g : State → β) (f : State → α → State) (hf : ∀ u a, g (f u a) = g u) (l : List α) :
    g (l.foldl f s) = g s := by
  induction l generalizing s with
  | nil => rfl
  | cons a l ih => rw [List.foldl_cons, ih, hf]

/-! ### Host writes -/

@[simp] theorem held_takeSlot (p : Port) (req : Request) : (s.takeSlot p req).held = s.held := by
  unfold State.takeSlot
  rw [held_arbitrate]
  split <;> rfl

@[simp] theorem held_arrive (p : Port) (req : Request) : (s.arrive p req).held = s.held := by
  unfold State.arrive State.completeNow
  split
  · rfl
  · split <;> simp
  · rfl
  · split <;> simp

@[simp] theorem held_writeCommand (p : Port) (v : Word) : (s.writeCommand p v).held = s.held := by
  unfold State.writeCommand
  dsimp only
  split
  · rfl
  · split <;> simp

@[simp] theorem held_writePort (p : Port) (f : PortIf → PortIf) : (s.writePort p f).held = s.held := by
  unfold State.writePort
  split <;> rfl

@[simp] theorem held_takeRecord (p : Port) : (s.takeRecord p).held = s.held := by
  unfold State.takeRecord
  split <;> rfl

/-- A host write of a data word changes no held field, or writes one word of a buffer that a writer stages (R64). -/
theorem held_writeData (p : Port) (a : ApIdx) (w : WordIdx) (v : Word) :
    (s.writeData p a w v).held = s.held ∨
      ∃ b, (s.aperture p a).stages = some b ∧
        (s.writeData p a w v).held = { s.held with mem := s.mem.writeWord b w v } := by
  unfold State.writeData
  dsimp only
  split
  · exact .inl rfl
  · split
    · exact .inl rfl
    · split
      · exact .inl rfl
      · exact .inl rfl
      all_goals
        rename_i bind b _ h
        split
        · exact .inr ⟨b, by rw [h]; rfl, rfl⟩
        · exact .inl rfl

/-- A host write of a window word is the write of a data word, or changes no held field (Table 10-1). -/
theorem held_writeWindowWord (p : Port) (x : WindowWord) (v : Word) :
    (s.writeWindowWord p x v).held = s.held ∨ ∃ a w, s.writeWindowWord p x v = s.writeData p a w v := by
  cases x with
  | apData a w => exact .inr ⟨a, w, rfl⟩
  | command => exact .inl (held_writeCommand s p v)
  | param _ => exact .inl (held_writePort s p _)
  | latch => exact .inl (held_writePort s p _)
  | mask => exact .inl (held_writePort s p _)
  | force => exact .inl (held_writePort s p _)
  | take => exact .inl (held_takeRecord s p)
  | _ => exact .inl rfl

/-! ### The claim -/

/-- The claim has moved to the holder of `t`: its report is made and every Port Interface has the move behind the notices that it
had not yet taken (R143). -/
structure ClaimMoved (s t : State) : Prop where
  reported : .port (.claimMoved t.holder s.timeBase) ∈ t.nuInput
  handed : ∀ q, (t.port q).notices = (s.port q).notices ++ [.claimMove]

/-- What an operation of the Claim Unit does: it changes the holder and the wait list at most, and a new holder has the claim
moved to it. -/
structure ClaimChange (s t : State) : Prop where
  held : t.held = { s.held with holder := t.holder, waiters := t.waiters }
  moved : t.holder ≠ s.holder → ClaimMoved s t

theorem claimChange_moveClaim (h : Option Port) (l : List Port) : ClaimChange s (s.moveClaim h l) where
  held := rfl
  moved _ :=
    { reported := by simp [State.moveClaim]
      handed := fun q => by simp [State.moveClaim, PortIf.handNotice]; rfl }

/-- An operation that leaves the holder leaves the claim where it is. -/
theorem ClaimChange.of_holder {s t : State} (held : t.held = { s.held with holder := t.holder, waiters := t.waiters })
    (h : t.holder = s.holder) : ClaimChange s t := ⟨held, fun hn => absurd h hn⟩

theorem claimChange_passClaim : ClaimChange s s.passClaim := by
  unfold State.passClaim
  split <;> exact claimChange_moveClaim s _ _

theorem claimChange_claim (p : Port) (wait : Bool) : ClaimChange s (s.claim p wait).1 := by
  unfold State.claim
  split_ifs
  · exact claimChange_moveClaim s _ _
  all_goals exact .of_holder rfl rfl

theorem claimChange_release (p : Port) : ClaimChange s (s.release p).1 := by
  unfold State.release
  split_ifs
  · exact claimChange_passClaim s
  all_goals exact .of_holder rfl rfl

theorem claimChange_releaseAtTeardown (p : Port) : ClaimChange s (s.releaseAtTeardown p) := by
  unfold State.releaseAtTeardown
  split_ifs
  · exact claimChange_passClaim s
  · exact .of_holder rfl rfl

/-- A change of Port Interfaces that keeps their notices, and items added to the input order, keep the claim's change. -/
theorem ClaimChange.trans_traffic {s t u : State} (h : ClaimChange s t) (held : u.held = t.held)
    (input : ∀ x ∈ t.nuInput, x ∈ u.nuInput) (notices : ∀ q, (u.port q).notices = (t.port q).notices) : ClaimChange s u := by
  have hholder : u.holder = t.holder := (congrArg State.holder held :)
  have hwaiters : u.waiters = t.waiters := (congrArg State.waiters held :)
  refine ⟨by rw [held, hholder, hwaiters, h.held], fun hn => ?_⟩
  obtain ⟨reported, handed⟩ := h.moved (hholder ▸ hn)
  exact ⟨by rw [hholder]; exact input _ reported, fun q => by rw [notices, handed]⟩

/-- A completion leaves the notices of every Port Interface (R157). -/
theorem notices_complete (p : Port) (st : Status) (rw : Results) (q : Port) :
    ((s.complete p st rw).port q).notices = (s.port q).notices := by
  rw [port_complete]
  split
  · rename_i h
    subst h
    split <;> rfl
  · rfl

theorem ClaimChange.complete {s t : State} (h : ClaimChange s t) (p : Port) (st : Status) (rw : Results) :
    ClaimChange s (t.complete p st rw) :=
  h.trans_traffic (held_complete t p st rw) (fun _ hx => by rw [complete_frame]; exact hx) (notices_complete t p st rw)

end Sys2Proof.Machine
end

section
/-! SUPPORT. What a row can do, said once: `exec_effect` says which of the held fields each row of the table may change, and how.
Invariants of every step and rules of what may change a field are read off it. -/

namespace Sys2Proof.Machine

/-! ### What a row can do -/

/-- The answers of the Store Controller: for each row of port `p` that passes the arbiter, what SC makes of the request, before the
store event ends and the command completes. -/
inductive StoreAnswer (s : State) (p : Port) : Instr → Answered → Prop
  | ord (mask : Byte) (locals : Vector LocalNo 8) (ans : Vector Answer 8) :
    StoreAnswer s p (.ord p) (s.openRead p mask locals ans)
  | ref (mask : Byte) : StoreAnswer s p (.ref p) (s.refresh p mask)
  | owr (l : LocalNo) (a : ApIdx) (zero : Bool) (ans : Answer) : StoreAnswer s p (.owr p) (s.openWrite p l a zero ans)
  | pub (mask : Byte) (conditional retain : Bool) (ans : Vector Answer 8) :
    StoreAnswer s p (.pub p) (s.publish p mask conditional retain ans)
  | cls (mask : Byte) : StoreAnswer s p (.cls p) (s.closeAll p (members mask), .ok, noResults)
  | ins (ans : Answer) : StoreAnswer s p (.ins p) (s.inspect ans)
  | pst : StoreAnswer s p (.pst p) (s, .ok, s.poolResults)
  | define (gid : Half) (length producer : Byte) (period grace : Half) :
    StoreAnswer s p (.define p) (s.defineEntry gid length producer period grace)
  | wdr (gid : Half) : StoreAnswer s p (.wdr p) (s.withdrawEntry gid)
  | sfr (gid period grace : Half) : StoreAnswer s p (.sfr p) (s.setFreshness gid period grace)
  | spt (threshold : Half) : StoreAnswer s p (.spt p) (s.setThreshold threshold)

/-- What row `i` can make of state `s`: which held fields it may change, and how. -/
inductive RowEffect (i : Instr) (s t : State) : Prop
  /-- Only the Port Interfaces, the rings, the input order and the arbiter. -/
  | traffic (held : t.held = s.held)
  | subscriptions (row : (∃ p, i = .sub p) ∨ ∃ p, i = .teardownNu p) (held : t.held = { s.held with subs := t.subs })
  | claim (row : (∃ p, i = .cla p) ∨ (∃ p, i = .rel p) ∨ ∃ p, i = .teardownCu p) (change : ClaimChange s t)
  | grants (row : ∃ p, i = .sgr p) (held : t.held = { s.held with grants := t.grants }) (input : t.nuInput = s.nuInput)
  | time (row : i = .millisecondExpiry) (now : Time) (phase : Fin 1000) (owed : Half) (waiting : Bool)
    (held : t.held = { s.held with timeBase := now, phase := phase, owed := owed, tickWaiting := waiting })
  | data (p : Port) (a : ApIdx) (b : BufId) (w : WordIdx) (v : Word) (staged : (s.aperture p a).stages = some b)
    (held : t.held = { s.held with mem := s.mem.writeWord b w v })
  | tick (taken : t = s.takeTick)
  | store (p : Port) (r : Answered) (row : StoreAnswer s p i r) (taken : t = s.finishStore p r)
  | teardown (p : Port) (held : t.held = (s.closeAll p (List.finRange 8)).held)
  | reset (row : i = .deviceReset) (taken : execDeviceReset s = .next t)

variable {s t : State}

theorem RowEffect.of_writeData {i : Instr} {p : Port} {a : ApIdx} {w : WordIdx} {v : Word} (h : t = s.writeData p a w v) :
    RowEffect i s t := by
  subst h
  rcases held_writeData s p a w v with held | ⟨b, staged, held⟩
  · exact .traffic held
  · exact .data p a b w v staged held

/-- A row of SC with no command to take changes nothing. -/
theorem RowEffect.idle {i : Instr} : RowEffect i s s := .traffic rfl

theorem execSub_effect {p : Port} (h : execSub p s = .next t) : RowEffect (.sub p) s t := by
  unfold execSub at h
  split at h
  · split at h
    · cases h
      refine .subscriptions (.inl ⟨p, rfl⟩) ?_
      rw [held_complete, complete_frame]
      unfold State.subscribe
      split
      · rfl
      · split <;> rfl
    · cases h; exact .idle
  · cases h; exact .idle

theorem execSgr_effect {p : Port} (h : execSgr p s = .next t) : RowEffect (.sgr p) s t := by
  unfold execSgr at h
  split at h
  · cases h
    refine .grants ⟨p, rfl⟩ ?_ ?_
    · rw [held_complete, complete_frame]
      unfold State.replaceGrant
      split <;> rfl
    · rw [complete_frame]
      unfold State.replaceGrant
      split <;> rfl
  · cases h; exact .idle

theorem execTeardownCu_effect {p : Port} (h : execTeardownCu p s = .next t) : RowEffect (.teardownCu p) s t := by
  unfold execTeardownCu at h
  split at h
  · cases h
    refine .claim (.inr (.inr ⟨p, rfl⟩)) ((claimChange_releaseAtTeardown s p).trans_traffic rfl (fun x hx => ?_) fun q => ?_)
    · exact List.mem_append_left _ hx
    · rw [State.toNotify_port, State.port_updatePort]
      split
      · rename_i hq; rw [hq]
      · rfl
  · cases h; exact .idle

theorem execTeardownNu_effect {p : Port} (h : execTeardownNu p s = .next t) : RowEffect (.teardownNu p) s t := by
  unfold execTeardownNu at h
  split at h
  · split at h
    · cases h; exact .subscriptions (.inr ⟨p, rfl⟩) rfl
    · cases h; exact .idle
  · cases h; exact .idle

theorem execTeardownSc_effect {p : Port} (h : execTeardownSc p s = .next t) : RowEffect (.teardownSc p) s t := by
  unfold execTeardownSc at h
  split at h
  · cases h; exact .teardown p (by simp)
  · cases h; exact .idle

/-- Every row of the table has one of these effects. -/
theorem exec_effect {i : Instr} (h : exec i s = .next t) : RowEffect i s t := by
  cases i with
  | nop p | badCommand p | rtm p =>
    simp only [exec, execNop, execBadCommand, execRtm] at h
    split at h <;> cases h <;> exact .traffic (by simp)
  | att p =>
    simp only [exec, execAtt] at h
    split at h <;> cases h <;> refine .traffic ?_
    · split
      · rfl
      · exact held_complete s p _ _
    · rfl
  | det p =>
    simp only [exec, execDet] at h
    split at h
    · split at h <;> cases h <;> exact .traffic (by simp)
    · cases h; exact .idle
  | rgr p =>
    simp only [exec, execRgr, State.readGrant] at h
    split at h <;> cases h <;> refine .traffic ?_
    · rw [held_complete]; split <;> rfl
    · rfl
  | commandTranslation p =>
    simp only [exec, execCommandTranslation] at h
    split at h <;> cases h <;> refine .traffic ?_
    · rw [held_arbitrate]; split <;> rfl
    · rfl
  | mrk p =>
    simp only [exec, execMrk] at h
    split at h
    · split at h <;> cases h <;> exact .traffic (by simp)
    · cases h; exact .idle
  | entryReport | portReport =>
    simp only [exec, execEntryReport, execPortReport] at h
    split at h <;> cases h
    · exact .traffic (foldl_keeps _ State.held _ (by simp) _)
    · exact .idle
  | commandArrival p v | commandOverrun p v => cases h; exact .traffic (held_writeCommand s p v)
  | latchWord p v | maskWord p v | forceWord p v => cases h; exact .traffic (held_writePort s p _)
  | take p v => cases h; exact .traffic (held_takeRecord s p)
  | dataWordWrite p a w v => cases h; exact .of_writeData rfl
  | windowWrite p offset v =>
    cases h
    rcases held_writeWindowWord s p (windowWord offset) v with held | ⟨a, w, hw⟩
    · exact .traffic held
    · exact .of_writeData hw
  | presenceAsserted p => cases h; exact .traffic rfl
  | presenceDeasserted p =>
    cases h
    refine .traffic ?_
    split <;> simp
  | peerNotice p | claimMove p | crossing p | overflowClear p | departure p =>
    simp only [exec, execPeerNotice, execClaimMove, execCrossing, execOverflowClear, execDeparture] at h
    split at h <;> cases h <;> exact .traffic rfl
  | millisecondExpiry => cases h; exact .time rfl _ _ _ _ (held_arbitrate _)
  | tick | staleTransition | emptyExpiry =>
    simp only [exec, execTick, execStaleTransition, execEmptyExpiry] at h
    split at h <;> injection h with h
    · exact .tick h.symm
    · exact .traffic (by rw [h])
  | sub p => exact execSub_effect h
  | sgr p => exact execSgr_effect h
  | cla p =>
    simp only [exec, execCla] at h
    split at h <;> cases h
    · exact .claim (.inl ⟨p, rfl⟩) ((claimChange_claim s p _).complete p _ _)
    · exact .idle
  | rel p =>
    simp only [exec, execRel] at h
    split at h <;> cases h
    · exact .claim (.inr (.inl ⟨p, rfl⟩)) ((claimChange_release s p).complete p _ _)
    · exact .idle
  | teardownCu p => exact execTeardownCu_effect h
  | teardownNu p => exact execTeardownNu_effect h
  | teardownSc p => exact execTeardownSc_effect h
  | deviceReset => exact .reset rfl h
  | ord p | ref p | owr p | pub p | cls p | ins p | pst p | define p | wdr p | sfr p | spt p =>
    simp only [exec, execOrd, execRef, execOwr, execPub, execCls, execIns, execPst, execDefine, execWdr, execSfr, execSpt] at h
    split at h <;> cases h
    · exact .store p _ (by constructor) rfl
    · exact .idle

end Sys2Proof.Machine
end

section
/-! SUPPORT. The pool's agreement, one buffer at a time: what opening, closing, retiring and publishing do to it (R25 to R28). -/

namespace Sys2Proof.Machine

/-! ### What an aperture names, and what the pool's operations leave -/

@[simp] theorem stages_closed : Aperture.closed.stages = none := rfl
@[simp] theorem pins_closed : Aperture.closed.pins = none := rfl
@[simp] theorem stages_reading (x : Binding) (b : BufId) (v : Version) (t : Time) (f : ReadFlags) :
    (Aperture.reading x b v t f).stages = none := rfl
@[simp] theorem pins_reading (x : Binding) (b : BufId) (v : Version) (t : Time) (f : ReadFlags) :
    (Aperture.reading x b v t f).pins = some b := rfl
@[simp] theorem stages_writing (x : Binding) (b : BufId) (v : Version) : (Aperture.writing x b v).stages = some b := rfl
@[simp] theorem pins_writing (x : Binding) (b : BufId) (v : Version) : (Aperture.writing x b v).pins = none := rfl
@[simp] theorem stages_orphaned (x : Binding) (b : BufId) (v : Version) : (Aperture.orphaned x b v).stages = some b := rfl
@[simp] theorem pins_orphaned (x : Binding) (b : BufId) (v : Version) : (Aperture.orphaned x b v).pins = none := rfl

theorem pins_of_stages {x : Aperture} {b : BufId} (h : x.stages = some b) : x.pins = none := by
  cases x with
  | reading => cases h
  | closed | writing | orphaned => rfl

theorem stages_of_pins {x : Aperture} {b : BufId} (h : x.pins = some b) : x.stages = none := by
  cases x with
  | reading => rfl
  | closed | writing | orphaned => cases h

section
variable (s : State)

@[simp] theorem aperture_pin (b : BufId) (q : Port) (a : ApIdx) : (s.pin b).aperture q a = s.aperture q a := rfl
@[simp] theorem entry_pin (b : BufId) (e : EntryId) : (s.pin b).entry e = s.entry e := rfl
@[simp] theorem pinCount_pin (b c : BufId) : (s.pin b).pinCount c = s.pinCount c := rfl
@[simp] theorem aperture_returnBuffer (b : BufId) (q : Port) (a : ApIdx) : (s.returnBuffer b).aperture q a = s.aperture q a := rfl
@[simp] theorem entry_returnBuffer (b : BufId) (e : EntryId) : (s.returnBuffer b).entry e = s.entry e := rfl
@[simp] theorem pinCount_returnBuffer (b c : BufId) : (s.returnBuffer b).pinCount c = s.pinCount c := rfl
@[simp] theorem pinCount_setBuffer (b c : BufId) (r : BufRec) : (s.setBuffer b r).pinCount c = s.pinCount c := rfl
@[simp] theorem pinCount_setEntry (e : EntryId) (x : Entry) (c : BufId) : (s.setEntry e x).pinCount c = s.pinCount c := rfl

@[simp] theorem aperture_retireBuffer (b : BufId) (q : Port) (a : ApIdx) : (s.retireBuffer b).aperture q a = s.aperture q a := by
  rw [retireBuffer_frame]; rfl

@[simp] theorem entry_retireBuffer (b : BufId) (e : EntryId) : (s.retireBuffer b).entry e = s.entry e := by
  rw [retireBuffer_frame]; rfl

@[simp] theorem pinCount_retireBuffer (b c : BufId) : (s.retireBuffer b).pinCount c = s.pinCount c := by
  rw [retireBuffer_frame]; rfl

@[simp] theorem aperture_releasePin (b : BufId) (q : Port) (a : ApIdx) : (s.releasePin b).aperture q a = s.aperture q a := by
  rw [releasePin_frame]; rfl

@[simp] theorem entry_releasePin (b : BufId) (e : EntryId) : (s.releasePin b).entry e = s.entry e := by
  rw [releasePin_frame]; rfl

@[simp] theorem pinCount_releasePin (b c : BufId) : (s.releasePin b).pinCount c = s.pinCount c := by
  rw [releasePin_frame]; rfl

end

/-! ### The readers of a buffer, as a set -/

theorem toList_eq_map_finRange {α : Type} {n : Nat} (v : Vector α n) : v.toList = (List.finRange n).map fun i => v[i] :=
  List.ext_getElem (by simp) fun i _ _ => by simp

theorem countP_toList_eq_card {α : Type} {n : Nat} (v : Vector α n) (f : α → Prop) [DecidablePred f] :
    v.toList.countP (fun x => decide (f x)) = (Finset.univ.filter fun i : Fin n => f v[i]).card := by
  rw [toList_eq_map_finRange, List.countP_map, ← List.toFinset_finRange,
    List.Nodup.card_eq_countP (List.nodup_finRange n)]
  rfl

/-- The READING apertures, over all ports, that pin a buffer. -/
def State.readersOf (s : State) (b : BufId) : Finset (Port × ApIdx) :=
  Finset.univ.filter fun x => (s.aperture x.1 x.2).pins = some b

theorem mem_readersOf (s : State) (b : BufId) (x : Port × ApIdx) :
    x ∈ s.readersOf b ↔ (s.aperture x.1 x.2).pins = some b := by simp [State.readersOf]

theorem pinCount_eq_card (s : State) (b : BufId) : s.pinCount b = (s.readersOf b).card := by
  have hsum : s.pinCount b = ∑ p : Port, (Finset.univ.filter fun a : ApIdx => (s.aperture p a).pins = some b).card := by
    unfold State.pinCount
    simp only [countP_toList_eq_card]
    rw [Fin.sum_univ_def, ← List.foldr_map, toList_eq_map_finRange, List.map_map]
    rfl
  rw [hsum, State.readersOf, Finset.card_filter, Fintype.sum_prod_type]
  exact Finset.sum_congr rfl fun p _ => Finset.card_filter _ _

/-- A buffer has the readers that it had where every aperture pins what it pinned. -/
theorem pinCount_congr {s t : State} (h : ∀ p a, (t.aperture p a).pins = (s.aperture p a).pins) (b : BufId) :
    t.pinCount b = s.pinCount b := by
  simp only [pinCount_eq_card, State.readersOf, h]

/-- The readers of a buffer, counted with aperture `a` of port `p` apart. -/
theorem pinCount_eq_others (s : State) (p : Port) (a : ApIdx) (b : BufId) :
    s.pinCount b = ((s.readersOf b).erase (p, a)).card + if (s.aperture p a).pins = some b then 1 else 0 := by
  rw [pinCount_eq_card]
  split <;> rename_i h
  · exact (Finset.card_erase_add_one ((mem_readersOf s b (p, a)).mpr h)).symm
  · rw [Finset.erase_eq_of_notMem (mt (mem_readersOf s b (p, a)).mp h), Nat.add_zero]

/-- What the replacement of one aperture record does to the number of a buffer's readers. -/
theorem pinCount_setAperture (s : State) (p : Port) (a : ApIdx) (x : Aperture) (b : BufId) :
    (s.setAperture p a x).pinCount b + (if (s.aperture p a).pins = some b then 1 else 0) =
      s.pinCount b + if x.pins = some b then 1 else 0 := by
  have hothers : ((s.setAperture p a x).readersOf b).erase (p, a) = (s.readersOf b).erase (p, a) := by
    ext ⟨q, c⟩
    simp only [Finset.mem_erase, mem_readersOf, State.aperture_setAperture, ne_eq, Prod.mk.injEq]
    refine and_congr_right fun hne => ?_
    rw [if_neg fun hq => hne ⟨hq.1.symm, hq.2.symm⟩]
  rw [pinCount_eq_others _ p a, pinCount_eq_others s p a, hothers]
  simp only [State.aperture_setAperture, and_self, if_true]
  omega

/-! ### The pool's agreement, one buffer at a time -/

/-- What `State.PoolOk` says of one buffer: its record agrees with the free list, with the aperture or the entry that names it, and
with its readers. -/
structure State.BufferOk (s : State) (b : BufId) : Prop where
  free : b ∈ s.freeList ↔ (s.buffer b).state = .free
  staged : ∀ p a, (s.buffer b).state = .staged p a ↔ (s.aperture p a).stages = some b
  current : ∀ e, (s.buffer b).state = .current e ↔ (s.entry e).current = some b
  holds : (s.buffer b).holds = s.pinCount b
  retiredHeld : (s.buffer b).state = .retired → 1 ≤ (s.buffer b).holds
  unheld : (s.buffer b).state = .free ∨ (∃ p a, (s.buffer b).state = .staged p a) → (s.buffer b).holds = 0

theorem poolOk_iff (s : State) : s.PoolOk ↔ s.freeList.Nodup ∧ ∀ b, s.BufferOk b :=
  ⟨fun h => ⟨h.freeNodup, fun b =>
      ⟨h.free b, h.staged b, h.current b, h.holds b, h.retiredHeld b, h.unheld b⟩⟩,
    fun ⟨hn, h⟩ => ⟨hn, fun b => (h b).free, fun b => (h b).staged, fun b => (h b).current, fun b => (h b).holds,
      fun b => (h b).retiredHeld, fun b => (h b).unheld⟩⟩

theorem State.PoolOk.bufferOk {s : State} (h : s.PoolOk) (b : BufId) : s.BufferOk b := ((poolOk_iff s).mp h).2 b

section
variable {s t : State} {c : BufId}

/-- A buffer that keeps its state and the places that name it agrees again once its hold count is the number of its readers. -/
theorem State.BufferOk.recount (h : s.BufferOk c) (hstate : (t.buffer c).state = (s.buffer c).state)
    (hfree : c ∈ t.freeList ↔ c ∈ s.freeList)
    (hstages : ∀ p a, (t.aperture p a).stages = some c ↔ (s.aperture p a).stages = some c)
    (hcur : ∀ e, (t.entry e).current = some c ↔ (s.entry e).current = some c) (hholds : (t.buffer c).holds = t.pinCount c)
    (hretired : (s.buffer c).state = .retired → 1 ≤ (t.buffer c).holds)
    (hunheld : (s.buffer c).state = .free ∨ (∃ p a, (s.buffer c).state = .staged p a) → (t.buffer c).holds = 0) :
    t.BufferOk c where
  free := by rw [hfree, hstate]; exact h.free
  staged p a := by rw [hstate, hstages]; exact h.staged p a
  current e := by rw [hstate, hcur]; exact h.current e
  holds := hholds
  retiredHeld := by rw [hstate]; exact hretired
  unheld := by rw [hstate]; exact hunheld

/-- A buffer's agreement rests on its own record and on the places that name it. -/
theorem State.BufferOk.congr (h : s.BufferOk c) (hbuf : t.buffer c = s.buffer c) (hfree : c ∈ t.freeList ↔ c ∈ s.freeList)
    (hstages : ∀ p a, (t.aperture p a).stages = some c ↔ (s.aperture p a).stages = some c)
    (hcur : ∀ e, (t.entry e).current = some c ↔ (s.entry e).current = some c) (hpins : t.pinCount c = s.pinCount c) :
    t.BufferOk c :=
  h.recount (by rw [hbuf]) hfree hstages hcur (by rw [hbuf, hpins]; exact h.holds) (by rw [hbuf]; exact h.retiredHeld)
    (by rw [hbuf]; exact h.unheld)

/-- A record that stages what the one before it staged leaves the stagings of a buffer. -/
theorem stages_setAperture {p : Port} {a : ApIdx} {x : Aperture} (hx : x.stages = some c ↔ (s.aperture p a).stages = some c)
    (q : Port) (d : ApIdx) : ((s.setAperture p a x).aperture q d).stages = some c ↔ (s.aperture q d).stages = some c := by
  rw [State.aperture_setAperture]
  split
  · rename_i hq; rw [← hq.1, ← hq.2]; exact hx
  · rfl

theorem State.BufferOk.setBuffer_ne (h : s.BufferOk c) {b : BufId} (hne : b ≠ c) (r : BufRec) : (s.setBuffer b r).BufferOk c :=
  h.congr (by rw [State.buffer_setBuffer, if_neg hne]) Iff.rfl (fun _ _ => Iff.rfl) (fun _ => Iff.rfl) rfl

theorem State.BufferOk.setEntry (h : s.BufferOk c) {e : EntryId} {x : Entry}
    (hx : x.current = some c ↔ (s.entry e).current = some c) : (s.setEntry e x).BufferOk c := by
  refine h.congr rfl Iff.rfl (fun _ _ => Iff.rfl) (fun e' => ?_) rfl
  rw [State.entry_setEntry]
  split
  · rename_i he; rw [← he]; exact hx
  · rfl

theorem State.BufferOk.setAperture (h : s.BufferOk c) {p : Port} {a : ApIdx} {x : Aperture}
    (hstages : x.stages = some c ↔ (s.aperture p a).stages = some c)
    (hpins : x.pins = some c ↔ (s.aperture p a).pins = some c) : (s.setAperture p a x).BufferOk c := by
  refine h.congr rfl Iff.rfl (stages_setAperture hstages) (fun _ => Iff.rfl) ?_
  have := pinCount_setAperture s p a x c
  simp only [hpins] at this
  omega

theorem State.BufferOk.withFreeList (h : s.BufferOk c) {l : List BufId} (hl : c ∈ l ↔ c ∈ s.freeList) (m : Memory) :
    State.BufferOk { s with freeList := l, mem := m } c :=
  h.congr rfl hl (fun _ _ => Iff.rfl) (fun _ => Iff.rfl) rfl

theorem State.BufferOk.returnBuffer_ne (h : s.BufferOk c) {b : BufId} (hne : b ≠ c) : (s.returnBuffer b).BufferOk c :=
  (h.setBuffer_ne hne _).withFreeList (by simp [Ne.symm hne]) s.mem

/-- The pool's agreement rests on the free list, the buffer records, the current buffers, and what the apertures pin and stage. -/
theorem State.PoolOk.congr (h : s.PoolOk) (hfree : t.freeList = s.freeList) (hbuf : ∀ b, t.buffer b = s.buffer b)
    (hcur : ∀ e, (t.entry e).current = (s.entry e).current) (hpins : ∀ p a, (t.aperture p a).pins = (s.aperture p a).pins)
    (hstages : ∀ p a, (t.aperture p a).stages = (s.aperture p a).stages) : t.PoolOk :=
  (poolOk_iff t).mpr ⟨hfree ▸ h.freeNodup, fun b => (h.bufferOk b).congr (hbuf b) (by rw [hfree])
    (fun p a => by rw [hstages]) (fun e => by rw [hcur]) (pinCount_congr hpins b)⟩

end

/-! ### Operations that keep the pool's agreement -/

section
variable {s : State} {p : Port} {a : ApIdx} {b : BufId}

/-- A CLOSED aperture comes to read an entry's current buffer (R53). -/
theorem State.PoolOk.openReader (h : s.PoolOk) (hclosed : s.aperture p a = .closed) {e : EntryId}
    (hcur : (s.entry e).current = some b) (bind : Binding) (v : Version) (t : Time) (f : ReadFlags) :
    ((s.pin b).setAperture p a (.reading bind b v t f)).PoolOk := by
  refine (poolOk_iff _).mpr ⟨h.freeNodup, fun c => ?_⟩
  have hc := h.bufferOk c
  by_cases hbc : b = c
  · subst hbc
    have hstate : (s.buffer b).state = .current e := (hc.current e).mpr hcur
    have hcount := pinCount_setAperture (s.pin b) p a (.reading bind b v t f) b
    refine hc.recount (by simp) Iff.rfl (stages_setAperture (s := s.pin b) (by simp [hclosed])) (fun _ => Iff.rfl) ?_
      (by simp) (by simp [hstate])
    simpa [hclosed, ← hc.holds] using hcount.symm
  · exact (hc.setBuffer_ne hbc _).setAperture (by simp [hclosed]) (by simp [hclosed, hbc])

/-- The buffer that an aperture stages is held by nobody. -/
theorem State.PoolOk.staged_unheld (h : s.PoolOk) (hst : (s.aperture p a).stages = some b) :
    (s.buffer b).state = .staged p a ∧ (s.buffer b).holds = 0 :=
  have hstate := (h.staged b p a).mpr hst
  ⟨hstate, h.unheld b (.inr ⟨p, a, hstate⟩)⟩

/-- A buffer is staged for one aperture at most. -/
theorem State.PoolOk.stages_unique (h : s.PoolOk) (hst : (s.aperture p a).stages = some b) {q : Port} {d : ApIdx}
    (hq : (s.aperture q d).stages = some b) : p = q ∧ a = d := by
  have hstate := (h.staged b p a).mpr hst
  rwa [(h.staged b q d).mpr hq, BufState.staged.injEq, eq_comm, eq_comm (a := d)] at hstate

theorem State.PoolOk.returnBuffer_nodup (h : s.PoolOk) (hb : (s.buffer b).state ≠ .free) :
    (s.returnBuffer b).freeList.Nodup :=
  h.freeNodup.append (List.nodup_singleton b) (by simpa [h.free] using hb)

/-- A FREE buffer on the free list agrees once nothing names it. -/
theorem bufferOk_of_free {t : State} (hbuf : t.buffer b = { state := .free, holds := 0 }) (hfree : b ∈ t.freeList)
    (hstages : ∀ q d, (t.aperture q d).stages ≠ some b) (hcur : ∀ e, (t.entry e).current ≠ some b)
    (hpins : t.pinCount b = 0) : t.BufferOk b where
  free := by simp [hbuf, hfree]
  staged q d := by simp [hbuf, hstages]
  current e := by simp [hbuf, hcur]
  holds := by rw [hbuf, hpins]
  retiredHeld := by simp [hbuf]
  unheld := by simp [hbuf]

/-- A writer's staged buffer returns to the free list as the aperture closes (R62). -/
theorem State.PoolOk.closeWriter (h : s.PoolOk) (hst : (s.aperture p a).stages = some b) :
    ((s.returnBuffer b).setAperture p a .closed).PoolOk := by
  obtain ⟨hstate, hholds⟩ := h.staged_unheld hst
  have hpins := pins_of_stages hst
  refine (poolOk_iff _).mpr ⟨h.returnBuffer_nodup (by simp [hstate]), fun c => ?_⟩
  have hc := h.bufferOk c
  by_cases hbc : b = c
  · subst hbc
    have hcount := pinCount_setAperture (s.returnBuffer b) p a .closed b
    refine bufferOk_of_free (by simp) (by simp) (fun q d => ?_) (fun e => ?_) ?_
    · rw [State.aperture_setAperture]
      split
      · simp
      · rename_i hne; exact fun hq => hne (h.stages_unique hst hq)
    · exact fun he => by simp [(h.current b e).mpr he] at hstate
    · simpa [hpins, ← hc.holds, hholds] using hcount
  · exact (hc.returnBuffer_ne hbc).setAperture (by simp [hst, hbc]) (by simp [hpins])

/-- A reader's pin is released as the aperture closes, and a RETIRED buffer without a reader left returns to the free list (R36,
R61). -/
theorem State.PoolOk.closeReader (h : s.PoolOk) (hp : (s.aperture p a).pins = some b) :
    ((s.releasePin b).setAperture p a .closed).PoolOk := by
  have hst := stages_of_pins hp
  have hcount := pinCount_setAperture (s.releasePin b) p a .closed b
  have hb := h.bufferOk b
  simp only [aperture_releasePin, hp, pinCount_releasePin, ← hb.holds, pins_closed, if_true, reduceCtorEq, if_false,
    Nat.add_zero] at hcount
  rcases releasePin_cases s b with ⟨hretired, hone, heq⟩ | ⟨hkept, heq⟩ <;> rw [heq] at hcount ⊢ <;>
    refine (poolOk_iff _).mpr ⟨?_, fun c => ?_⟩
  · exact h.returnBuffer_nodup (by simp [hretired])
  · by_cases hbc : b = c
    · subst hbc
      refine bufferOk_of_free (by simp) (by simp) (fun q d => ?_) (fun e => ?_) (by omega)
      · rw [State.aperture_setAperture]
        split
        · simp
        · exact fun hq => by simp [(h.staged b q d).mpr hq] at hretired
      · exact fun he => by simp [(h.current b e).mpr he] at hretired
    · exact ((h.bufferOk c).returnBuffer_ne hbc).setAperture (by simp [hst]) (by simp [hp, hbc])
  · exact h.freeNodup
  · by_cases hbc : b = c
    · subst hbc
      refine hb.recount (by simp) Iff.rfl (stages_setAperture (s := s.setBuffer b _) (by simp [hst])) (fun _ => Iff.rfl)
        ?_ (fun hr => ?_) (fun hu => by simp [hb.unheld hu])
      all_goals rw [State.setAperture_buffer, State.buffer_setBuffer, if_pos rfl]
      · dsimp only at hcount ⊢
        omega
      · have : ¬(s.buffer b).holds ≤ 1 := fun hle => hkept ⟨hr, hle⟩
        dsimp only
        omega
    · exact ((h.bufferOk c).setBuffer_ne hbc _).setAperture (by simp [hst]) (by simp [hp, hbc])

/-- What an allocation changes and what it leaves, record by record (R30). -/
structure Allocated (s : State) (p : Port) (a : ApIdx) (f : WordIdx → Word) (b : BufId) (u : State) : Prop where
  freeList : s.freeList = b :: u.freeList
  buffer : ∀ c, u.buffer c = if b = c then { state := .staged p a, holds := 0 } else s.buffer c
  entry : ∀ e, u.entry e = s.entry e
  aperture : ∀ q d, u.aperture q d = s.aperture q d
  mem : u.mem = s.mem.fill b f

theorem allocated_of_allocate {f : WordIdx → Word} {u : State} (h : s.allocate p a f = some (b, u)) : Allocated s p a f b u := by
  obtain ⟨rest, hfree, rfl⟩ := (allocate_eq_some s p a f b u).mp h
  exact ⟨hfree, fun c => s.buffer_setBuffer b _ c, fun _ => rfl, fun _ _ => rfl, by dsimp only⟩

/-- A CLOSED aperture comes to write on the head of the free list (R59, R80). -/
theorem State.PoolOk.openWriter (h : s.PoolOk) (hclosed : s.aperture p a = .closed) {f : WordIdx → Word} {u : State}
    (hu : Allocated s p a f b u) (bind : Binding) (v : Version) : (u.setAperture p a (.writing bind b v)).PoolOk := by
  obtain ⟨hnotin, hnodup⟩ := List.nodup_cons.mp (hu.freeList ▸ h.freeNodup)
  have hstate : (s.buffer b).state = .free := (h.free b).mp (by simp [hu.freeList])
  have hpins : ∀ c, u.pinCount c = s.pinCount c := pinCount_congr fun q d => by rw [hu.aperture]
  refine (poolOk_iff _).mpr ⟨hnodup, fun c => ?_⟩
  have hc := h.bufferOk c
  by_cases hbc : b = c
  · subst hbc
    have hcount := pinCount_setAperture u p a (.writing bind b v) b
    have hbuf : (u.setAperture p a (.writing bind b v)).buffer b = { state := .staged p a, holds := 0 } := by simp [hu.buffer]
    refine ⟨?_, fun q d => ?_, fun e => ?_, ?_, ?_, ?_⟩
    all_goals rw [hbuf]
    · simp [hnotin]
    · rw [State.aperture_setAperture, hu.aperture]
      split <;> rename_i hq
      · simp [hq]
      · simp [hq, ← h.staged, hstate]
    · simp [hu.entry, ← h.current, hstate]
    · simpa [hu.aperture, hclosed, hpins, ← h.holds, h.unheld b (.inl hstate)] using hcount.symm
    all_goals simp
  · refine BufferOk.setAperture (hc.congr (by rw [hu.buffer, if_neg hbc]) (by simp [hu.freeList, Ne.symm hbc])
      (fun q d => by rw [hu.aperture]) (fun e => by rw [hu.entry]) (hpins c)) ?_ ?_
    · simp [hu.aperture, hclosed, hbc]
    · simp [hu.aperture, hclosed]

/-- An entry's current buffer leaves it (R34). -/
theorem State.PoolOk.leaveEntry (h : s.PoolOk) {e : EntryId} (hcur : (s.entry e).current = some b) {x : Entry}
    (hx : x.current = none) : ((s.retireBuffer b).setEntry e x).PoolOk := by
  have hb := h.bufferOk b
  have hstate : (s.buffer b).state = .current e := (h.current b e).mpr hcur
  have hstages : ∀ q d, (s.aperture q d).stages ≠ some b := fun q d => by simp [ne_eq, ← h.staged, hstate]
  have hnone : ∀ e', (((s.retireBuffer b).setEntry e x).entry e').current ≠ some b := fun e' => by
    rw [State.entry_setEntry]
    split <;> rename_i he
    · simp [hx]
    · rw [entry_retireBuffer, ne_eq, ← h.current, hstate]; simpa using he
  rcases retireBuffer_cases s b with ⟨hheld, heq⟩ | ⟨hunheld, heq⟩ <;> rw [heq] at hnone ⊢ <;>
    refine (poolOk_iff _).mpr ⟨?_, fun c => ?_⟩
  · exact h.freeNodup
  · by_cases hbc : b = c
    · subst hbc
      have hbuf : (s.setBuffer b { s.buffer b with state := .retired }).buffer b = { s.buffer b with state := .retired } := by
        simp
      refine ⟨?_, fun q d => ?_, fun e' => ?_, ?_, ?_, ?_⟩
      all_goals rw [State.setEntry_buffer, hbuf]
      · simpa [hstate] using hb.free
      · simpa using hstages q d
      · simpa using hnone e'
      · exact hb.holds
      · exact fun _ => hheld
      · simp
    · exact ((h.bufferOk c).setBuffer_ne hbc _).setEntry (by simp [hx, hcur, hbc])
  · exact h.returnBuffer_nodup (by simp [hstate])
  · by_cases hbc : b = c
    · subst hbc
      exact bufferOk_of_free (by simp) (by simp) hstages hnone (by simpa [← hb.holds] using hunheld)
    · exact ((h.bufferOk c).returnBuffer_ne hbc).setEntry (by simp [hx, hcur, hbc])

/-- The buffer that an aperture staged becomes the current one of an entry without a current buffer, and the aperture closes (R33,
R79). -/
theorem State.PoolOk.promote (h : s.PoolOk) (hst : (s.aperture p a).stages = some b) {e : EntryId}
    (hcur : (s.entry e).current = none) {x : Entry} (hx : x.current = some b) :
    (((s.setBuffer b { state := .current e, holds := 0 }).setEntry e x).setAperture p a .closed).PoolOk := by
  obtain ⟨hstate, hholds⟩ := h.staged_unheld hst
  have hpins := pins_of_stages hst
  refine (poolOk_iff _).mpr ⟨h.freeNodup, fun c => ?_⟩
  have hc := h.bufferOk c
  by_cases hbc : b = c
  · subst hbc
    have hcount := pinCount_setAperture ((s.setBuffer b { state := .current e, holds := 0 }).setEntry e x) p a .closed b
    refine ⟨?_, fun q d => ?_, fun e' => ?_, ?_, ?_, ?_⟩
    all_goals rw [State.setAperture_buffer, State.setEntry_buffer, State.buffer_setBuffer, if_pos rfl]
    · simpa [hstate] using hc.free
    · rw [State.aperture_setAperture]
      split <;> rename_i hq
      · simp
      · simpa using fun hqd => hq (h.stages_unique hst hqd)
    · rw [State.setAperture_entry, State.entry_setEntry]
      split <;> rename_i he
      · simp [he, hx]
      · simp [he, ← h.current, hstate]
    · simpa [hpins, ← hc.holds, hholds] using hcount.symm
    all_goals simp
  · exact ((hc.setBuffer_ne hbc _).setEntry (by simp [hx, hcur, hbc])).setAperture (by simp [hst, hbc]) (by simp [hpins])

end

end Sys2Proof.Machine
end

section
/-! SUPPORT. Set commands as folds over their members, the fields beside the pool, and the aperture commands on the store. -/

namespace Sys2Proof.Machine

/-! ### Folds over the members of a set -/

/-- An invariant of the state and of the members still to come holds at the end of a set command's fold. -/
theorem foldl_invariant {f : State → ApIdx → State} {I : State → List ApIdx → Prop}
    (hstep : ∀ u a l, I u (a :: l) → I (f u a) l) (s : State) (l : List ApIdx) (h : I s l) : I (l.foldl f s) [] := by
  induction l generalizing s with
  | nil => exact h
  | cons a l ih => exact ih (f s a) (hstep s a l h)

/-- Members are taken one by one, each from a state in which it is ready, and none spoils another. -/
theorem foldl_members {f : State → ApIdx → State} {P : State → Prop} {ready : State → ApIdx → Prop}
    (hstep : ∀ u a, P u → ready u a → P (f u a))
    (hkeep : ∀ u a c, ready u a → ready u c → a ≠ c → ready (f u a) c)
    (s : State) (l : List ApIdx) (hl : l.Nodup) (hs : P s) (hready : ∀ a ∈ l, ready s a) : P (l.foldl f s) := by
  have := foldl_invariant (f := f) (I := fun u l => P u ∧ l.Nodup ∧ ∀ a ∈ l, ready u a) ?_ s l ⟨hs, hl, hready⟩
  · exact this.1
  · rintro u a l ⟨hP, hnodup, hr⟩
    obtain ⟨hnot, hnodup⟩ := List.nodup_cons.mp hnodup
    have ha := hr a List.mem_cons_self
    exact ⟨hstep u a hP ha, hnodup, fun c hc =>
      hkeep u a c ha (hr c (List.mem_cons_of_mem a hc)) fun hac => hnot (hac ▸ hc)⟩

/-! ### The fields beside the pool -/

/-- The state with the buffer records, the free list, the apertures and the Buffer Memory blanked out: equal states of this kind
agree in every other field, the catalog among them. -/
def State.besidesPool (s : State) : State :=
  { s with buffers := State.reset.buffers, freeList := [], apertures := State.reset.apertures, mem := [] }

section
variable (s : State)

theorem entry_of_besidesPool {s t : State} (h : t.besidesPool = s.besidesPool) (e : EntryId) : t.entry e = s.entry e :=
  (congrArg (·.entry e) h :)

@[simp] theorem besidesPool_setAperture (p : Port) (a : ApIdx) (x : Aperture) :
    (s.setAperture p a x).besidesPool = s.besidesPool := rfl

@[simp] theorem besidesPool_pinEntry (p : Port) (a : ApIdx) (bind : Binding) (x : Entry) :
    (s.pinEntry p a bind x).besidesPool = s.besidesPool := by
  unfold State.pinEntry; split <;> rfl

@[simp] theorem besidesPool_releasePin (b : BufId) : (s.releasePin b).besidesPool = s.besidesPool := by
  rw [releasePin_frame]; rfl

@[simp] theorem besidesPool_retireBuffer (b : BufId) : (s.retireBuffer b).besidesPool = s.besidesPool := by
  rw [retireBuffer_frame]; rfl

@[simp] theorem besidesPool_ordMember (p : Port) (locals : Vector LocalNo 8) (ans : Vector Answer 8) (a : ApIdx) :
    (s.ordMember p locals ans a).besidesPool = s.besidesPool := by
  unfold State.ordMember; split <;> simp

@[simp] theorem besidesPool_refMember (p : Port) (a : ApIdx) : (s.refMember p a).besidesPool = s.besidesPool := by
  unfold State.refMember
  split
  · dsimp only; split <;> simp
  · rfl

@[simp] theorem besidesPool_closeAll (p : Port) (l : List ApIdx) : (s.closeAll p l).besidesPool = s.besidesPool := by
  rw [closeAll_frame]; rfl

end

/-! ### The aperture commands keep the store -/

/-- The store's agreement rests on the catalog, the pool, the apertures and the Buffer Memory. -/
theorem State.StoreOk.congr {s t : State} (h : s.StoreOk) (hcat : t.catalog = s.catalog) (hbuf : t.buffers = s.buffers)
    (hfree : t.freeList = s.freeList) (hap : t.apertures = s.apertures) (hmem : t.mem = s.mem) : t.StoreOk where
  catalog e := by
    have : t.entry e = s.entry e := by unfold State.entry; rw [hcat]
    rw [this]; exact h.catalog e
  pool := h.pool.congr hfree (fun b => by unfold State.buffer; rw [hbuf]) (fun e => by unfold State.entry; rw [hcat])
    (fun p a => by unfold State.aperture; rw [hap]) (fun p a => by unfold State.aperture; rw [hap])
  mem := hmem ▸ h.mem

section
variable {s : State} {p : Port} {a : ApIdx}

theorem State.StoreOk.pinEntry (h : s.StoreOk) (hclosed : s.aperture p a = .closed) (bind : Binding) (e : EntryId) :
    (s.pinEntry p a bind (s.entry e)).StoreOk := by
  unfold State.pinEntry
  split
  · exact h
  · rename_i b hcur
    exact ⟨h.catalog, h.pool.openReader hclosed hcur _ _ _ _, h.mem⟩

theorem State.StoreOk.closeAperture (h : s.StoreOk) (p : Port) (a : ApIdx) : (s.closeAperture p a).StoreOk := by
  have hframe := closeAperture_frame s p a
  have hpool : (s.closeAperture p a).PoolOk := by
    unfold State.closeAperture
    split <;> rename_i hap
    · exact h.pool
    · exact h.pool.closeReader (by rw [hap]; rfl)
    · exact h.pool.closeWriter (by rw [hap]; rfl)
    · exact h.pool.closeWriter (by rw [hap]; rfl)
  refine ⟨fun e => ?_, hpool, ?_⟩
  · rw [hframe]; exact h.catalog e
  · rw [hframe]; exact h.mem

theorem State.StoreOk.closeAll (h : s.StoreOk) (p : Port) (l : List ApIdx) : (s.closeAll p l).StoreOk := by
  induction l generalizing s with
  | nil => exact h
  | cons a l ih => exact ih (h.closeAperture p a)

theorem setAperture_setAperture (s : State) (p : Port) (a : ApIdx) (x y : Aperture) :
    (s.setAperture p a x).setAperture p a y = s.setAperture p a y := by
  simp [State.setAperture]

/-- Pinning a current buffer overwrites whatever the aperture held. -/
theorem pinEntry_setAperture (s : State) (p : Port) (a : ApIdx) (x : Aperture) (bind : Binding) {y : Entry}
    (hy : y.current.isSome) : (s.setAperture p a x).pinEntry p a bind y = s.pinEntry p a bind y := by
  obtain ⟨b, hb⟩ := Option.isSome_iff_exists.mp hy
  simp only [State.pinEntry, hb]
  exact setAperture_setAperture (s.pin b) p a x _

theorem aperture_pinEntry_ne (s : State) (p : Port) {a c : ApIdx} (hne : a ≠ c) (bind : Binding) (x : Entry) :
    (s.pinEntry p a bind x).aperture p c = s.aperture p c := by
  unfold State.pinEntry
  split <;> simp [hne]

/-! #### ORD -/

theorem closed_of_ordCheck {ans : Vector Answer 8} (h : s.ordCheck p ans a = none) : s.aperture p a = .closed := by
  unfold State.ordCheck at h
  split at h
  · cases h
  · rename_i hclosed; exact not_not.mp hclosed

/-- ORD keeps the store: its members are CLOSED when it opens them (R52, R53). -/
theorem State.StoreOk.openRead (h : s.StoreOk) (p : Port) (mask : Byte) (locals : Vector LocalNo 8) (ans : Vector Answer 8) :
    (s.openRead p mask locals ans).1.StoreOk := by
  unfold State.openRead
  split
  · exact h
  · rename_i hchecks
    refine foldl_members (P := State.StoreOk) (ready := fun u a => u.aperture p a = .closed) (fun u a hu ha => ?_)
      (fun u a c _ hc hne => ?_) s (members mask) (members_nodup mask) h
      fun a ha => closed_of_ordCheck ((firstFailure_eq_none _ _).mp hchecks a ha)
    · unfold State.ordMember
      split
      · exact hu
      · exact hu.pinEntry ha _ _
    · unfold State.ordMember
      split
      · exact hc
      · rw [aperture_pinEntry_ne _ _ hne]; exact hc

/-! #### REF -/

/-- Aperture `a` reads an entry that has a current buffer. -/
def State.ReadsValue (s : State) (p : Port) (a : ApIdx) : Prop :=
  ∃ bind buf v t f, s.aperture p a = .reading bind buf v t f ∧ (s.entry bind.entry).current.isSome

/-- A CURRENT or STALE entry has a current buffer (R2). -/
theorem Entry.Ok.current_isSome {x : Entry} (h : x.Ok) (hu : x.state ≠ .undefined) (he : x.state ≠ .empty) :
    x.current.isSome := by
  unfold Entry.Ok at h
  split at h
  · rename_i hx; exact absurd hx hu
  · rename_i hx; exact absurd hx he
  · exact h.2.2.1
  · exact h.2.2.1

theorem readsValue_of_refCheck (hcat : s.CatalogOk) (h : s.refCheck p a = none) : s.ReadsValue p a := by
  unfold State.refCheck at h
  split at h
  · rename_i bind buf v t f hap
    dsimp only at h
    split_ifs at h with hgone hempty
    exact ⟨bind, buf, v, t, f, hap, (hcat bind.entry).current_isSome (fun hu => hgone (.inr (.inl hu))) hempty⟩
  · cases h

theorem refMember_eq {bind : Binding} {buf : BufId} {v : Version} {t : Time} {f : ReadFlags}
    (hap : s.aperture p a = .reading bind buf v t f) (hcur : (s.entry bind.entry).current.isSome) :
    s.refMember p a = if (s.entry bind.entry).current = some buf then
        s.setAperture p a (.reading bind buf v t
          { updated := false, stale := decide ((s.entry bind.entry).state = .stale), gone := false })
      else (s.closeAperture p a).pinEntry p a bind (s.entry bind.entry) := by
  simp only [State.refMember, State.closeAperture, hap, pinEntry_setAperture _ _ _ _ _ hcur]

/-- REF keeps the store: a member that moves gives up its pin and takes the new one as a CLOSED aperture would (R56). -/
theorem State.StoreOk.refMember (h : s.StoreOk) (hr : s.ReadsValue p a) : (s.refMember p a).StoreOk := by
  obtain ⟨bind, buf, v, t, f, hap, hcur⟩ := hr
  rw [refMember_eq hap hcur]
  split
  · refine ⟨h.catalog, h.pool.congr rfl (fun _ => rfl) (fun _ => rfl) (fun q c => ?_) (fun q c => ?_), h.mem⟩
    all_goals
      rw [State.aperture_setAperture]
      split
      · rename_i hq; rw [← hq.1, ← hq.2, hap]; rfl
      · rfl
  · have hclosed : (s.closeAperture p a).aperture p a = .closed := by simp [aperture_closeAperture]
    have hentry : (s.closeAperture p a).entry bind.entry = s.entry bind.entry := by rw [closeAperture_frame]; rfl
    rw [← hentry]
    exact (h.closeAperture p a).pinEntry hclosed bind bind.entry

theorem aperture_refMember_ne (s : State) (p : Port) {a c : ApIdx} (hne : a ≠ c) :
    (s.refMember p a).aperture p c = s.aperture p c := by
  unfold State.refMember
  split
  · dsimp only
    split
    · simp [hne]
    · rw [aperture_pinEntry_ne _ _ hne, aperture_releasePin]
  · rfl

theorem State.StoreOk.refresh (h : s.StoreOk) (p : Port) (mask : Byte) : (s.refresh p mask).1.StoreOk := by
  unfold State.refresh
  split
  · exact h
  · rename_i hchecks
    refine foldl_members (P := State.StoreOk) (ready := fun u a => u.ReadsValue p a) (fun u a hu ha => hu.refMember ha)
      (fun u a c _ hc hne => ?_) s (members mask) (members_nodup mask) h
      fun a ha => readsValue_of_refCheck h.catalog ((firstFailure_eq_none _ _).mp hchecks a ha)
    unfold State.ReadsValue at hc ⊢
    rw [aperture_refMember_ne u p hne]
    simpa only [entry_of_besidesPool (besidesPool_refMember u p a)] using hc

/-! #### OWR -/

theorem closed_of_owrCheck {ans : Answer} (h : s.owrCheck p a ans = none) : s.aperture p a = .closed := by
  unfold State.owrCheck at h
  split at h
  · cases h
  · rename_i hclosed; exact not_not.mp hclosed

/-- An aperture opened on a newly allocated buffer keeps the store (R59, R80). -/
theorem State.StoreOk.openWriter (h : s.StoreOk) (hclosed : s.aperture p a = .closed) {f : WordIdx → Word} {b : BufId}
    {u : State} (hu : Allocated s p a f b u) (bind : Binding) (v : Version) :
    (u.setAperture p a (.writing bind b v)).StoreOk where
  catalog e := by rw [State.setAperture_entry, hu.entry]; exact h.catalog e
  pool := h.pool.openWriter hclosed hu bind v
  mem := by rw [State.setAperture_mem, hu.mem]; exact Memory.fill_wf s.mem h.mem b f

theorem State.StoreOk.openWrite (h : s.StoreOk) (p : Port) (l : LocalNo) (a : ApIdx) (zero : Bool) (ans : Answer) :
    (s.openWrite p l a zero ans).1.StoreOk := by
  unfold State.openWrite
  split
  · exact h
  · exact h
  · rename_i hcheck
    dsimp only
    split
    · exact h
    · rename_i hu
      exact h.openWriter (closed_of_owrCheck hcheck) (allocated_of_allocate hu) _ _

end

end Sys2Proof.Machine
end

section
/-! SUPPORT. The catalog's commands, the tick and PUB on the store: entries keep the fields of their states (Table 1-2), and the
pool its agreement. -/

namespace Sys2Proof.Machine

/-! ### Entries keep the fields of their states -/

theorem ok_undefinedWith (g : Generation) : (Entry.undefinedWith g).Ok := rfl

/-- An UNDEFINED entry holds its generation alone (R1). -/
theorem Entry.Ok.eq_undefinedWith {x : Entry} (h : x.Ok) (hx : x.state = .undefined) : x = Entry.undefinedWith x.generation := by
  unfold Entry.Ok at h
  rwa [hx] at h

/-- A countdown loaded by DEF, or by SFR on an EMPTY entry, is within the period and the grace, and 0 only where the entry is not
watched (Table 1-5). -/
theorem firstCountdown_spec (period grace : Half) :
    (period = 0 → firstCountdown period grace = 0) ∧
      (firstCountdown period grace).toNat ≤ max period.toNat grace.toNat ∧
        (firstCountdown period grace = 0 → period = 0) := by
  unfold firstCountdown
  split_ifs with hp hg
  · simp [hp]
  · simp
  · exact ⟨fun h => absurd h hp, le_max_right _ _, fun h => absurd h hg⟩

/-- An entry keeps its fields when a publication makes it CURRENT (R76). -/
theorem Entry.Ok.published {x : Entry} (h : x.Ok) (hx : x.state ≠ .undefined) (p : Port) (buf : BufId) (now : Time) :
    (x.published p buf now).Ok := by
  have hdef : 1 ≤ x.length.val ∧ x.producer.isSome := by
    unfold Entry.Ok at h
    split at h
    · rename_i hu; exact absurd hu hx
    all_goals exact ⟨h.1, h.2.1⟩
  exact ⟨hdef.1, hdef.2, rfl, rfl, rfl, le_rfl, id⟩

/-- SFR sets the countdown by the state, so the entry keeps its fields (R20). -/
theorem Entry.Ok.refreshed {x : Entry} (h : x.Ok) (hx : x.state ≠ .undefined) (period grace : Half) :
    Entry.Ok { x with period := period, grace := grace, countdown := sfrCountdown x.state period grace } := by
  unfold Entry.Ok at h ⊢
  dsimp only
  split at h <;> rename_i hstate <;> simp only [hstate, sfrCountdown]
  · exact absurd hstate hx
  · obtain ⟨hlen, hprod, hver, hcur, htime, hpub, -, -, -⟩ := h
    obtain ⟨hzero, hle, hpos⟩ := firstCountdown_spec period grace
    exact ⟨hlen, hprod, hver, hcur, htime, hpub, hzero, hle, fun h0 => .inl (hpos h0)⟩
  · obtain ⟨hlen, hprod, hcur, htime, hpub, -, -⟩ := h
    exact ⟨hlen, hprod, hcur, htime, hpub, le_rfl, id⟩
  · obtain ⟨hlen, hprod, hcur, htime, hpub, -, hcount⟩ := h
    exact ⟨hlen, hprod, hcur, htime, hpub, trivial, hcount⟩

/-- A saturating count that has been raised is above 0. -/
theorem one_le_saturatingSucc (x : Half) : 1 ≤ (saturatingSucc x).toNat := by
  unfold saturatingSucc
  split_ifs with hx
  · simp [hx]
  · have : x.toNat ≠ 65535 := fun h => hx (BitVec.eq_of_toNat_eq (by simpa using h))
    rw [BitVec.toNat_add]
    have := x.isLt
    simp
    omega

theorem runs_iff (x : Entry) : x.runs = true ↔ (x.state = .empty ∨ x.state = .current) ∧ x.countdown ≠ 0 := by
  simp [Entry.runs]

theorem expiresAt_iff (n : Half) (x : Entry) : x.expiresAt n = true ↔ x.runs = true ∧ x.countdown.toNat ≤ n.toNat := by
  simp [Entry.expiresAt, BitVec.le_def]

/-- A countdown above `n` that a tick lowers by `n` stays above 0 and no higher than it was. -/
theorem countdown_lowered {x n : Half} (h : n.toNat < x.toNat) : (x - n).toNat ≤ x.toNat ∧ x - n ≠ 0 := by
  have hsub : (x - n).toNat = x.toNat - n.toNat := BitVec.toNat_sub_of_le (BitVec.le_def.mpr h.le)
  refine ⟨by omega, fun h0 => ?_⟩
  rw [h0] at hsub
  simp at hsub
  omega

/-- An expiry keeps an entry's fields: a CURRENT entry becomes STALE, an EMPTY one stays, and the expiry is counted (R97, R98). -/
theorem Entry.Ok.expired {x : Entry} (h : x.Ok) (hx : x.state = .empty ∨ x.state = .current) :
    Entry.Ok { x with
      state := if x.state = .current then .stale else x.state
      countdown := 0
      staleCount := saturatingSucc x.staleCount } := by
  have hcount := one_le_saturatingSucc x.staleCount
  unfold Entry.Ok at h ⊢
  rcases hx with hstate | hstate <;> simp only [hstate, reduceCtorEq, if_true, if_false] at h ⊢
  · obtain ⟨hlen, hprod, hver, hcur, htime, hpub, -, -, -⟩ := h
    exact ⟨hlen, hprod, hver, hcur, htime, hpub, fun _ => trivial, by simp, fun _ => .inr hcount⟩
  · obtain ⟨hlen, hprod, hcur, htime, hpub, -, -⟩ := h
    exact ⟨hlen, hprod, hcur, htime, hpub, trivial, hcount⟩

/-- A running countdown that stays above 0 keeps an entry's fields (R96). -/
theorem Entry.Ok.lowered {x : Entry} (h : x.Ok) (hx : x.state = .empty ∨ x.state = .current) (hrun : x.countdown ≠ 0)
    {y : Half} (hle : y.toNat ≤ x.countdown.toNat) (hpos : y ≠ 0) : Entry.Ok { x with countdown := y } := by
  unfold Entry.Ok at h ⊢
  rcases hx with hstate | hstate <;> simp only [hstate] at h ⊢
  · obtain ⟨hlen, hprod, hver, hcur, htime, hpub, hzero, hmax, -⟩ := h
    exact ⟨hlen, hprod, hver, hcur, htime, hpub, fun hp => absurd (hzero hp) hrun, hle.trans hmax, fun h0 => absurd h0 hpos⟩
  · obtain ⟨hlen, hprod, hcur, htime, hpub, hmax, -⟩ := h
    exact ⟨hlen, hprod, hcur, htime, hpub, hle.trans hmax, fun h0 => absurd h0 hpos⟩

/-- A tick's visit keeps an entry's fields (R96). -/
theorem Entry.Ok.visited {x : Entry} (h : x.Ok) (n : Half) : (x.visited n).Ok := by
  unfold Entry.visited
  split
  · rename_i hexp
    exact h.expired ((runs_iff x).mp ((expiresAt_iff n x).mp hexp).1).1
  · rename_i hexp
    split
    · rename_i hruns
      obtain ⟨hstate, hrun⟩ := (runs_iff x).mp hruns
      have hlt : n.toNat < x.countdown.toNat := by
        by_contra hle
        exact hexp ((expiresAt_iff n x).mpr ⟨hruns, by omega⟩)
      obtain ⟨hle, hpos⟩ := countdown_lowered hlt
      exact h.lowered hstate hrun hle hpos
    · exact h

/-! ### The catalog's commands keep the store -/

section
variable {s : State}

/-- An entry replaced by one that holds its fields and names the same current buffer keeps the store. -/
theorem State.StoreOk.setEntry (h : s.StoreOk) {e : EntryId} {x : Entry} (hx : x.Ok) (hcur : x.current = (s.entry e).current) :
    (s.setEntry e x).StoreOk where
  catalog e' := by
    rw [State.entry_setEntry]
    split
    · exact hx
    · exact h.catalog e'
  pool := h.pool.congr rfl (fun _ => rfl)
    (fun e' => by rw [State.entry_setEntry]; split <;> rename_i he <;> simp [he, hcur]) (fun _ _ => rfl) fun _ _ => rfl
  mem := h.mem

/-- Items for the Notification Unit are outside the store. -/
theorem State.StoreOk.toNotify (h : s.StoreOk) (i : NuItem) : (s.toNotify i).StoreOk := h.congr rfl rfl rfl rfl rfl

/-- Changes of the apertures' flags keep the store: they pin and stage what they did. -/
theorem State.StoreOk.mapApertures (h : s.StoreOk) {f : Aperture → Aperture} (hpins : ∀ x, (f x).pins = x.pins)
    (hstages : ∀ x, (f x).stages = x.stages) : (s.mapApertures f).StoreOk where
  catalog := h.catalog
  pool := h.pool.congr rfl (fun _ => rfl) (fun _ => rfl) (fun p a => by rw [State.aperture_mapApertures, hpins])
    fun p a => by rw [State.aperture_mapApertures, hstages]
  mem := h.mem

theorem State.StoreOk.defineEntry (h : s.StoreOk) (gid : Half) (length producer : Byte) (period grace : Half) :
    (s.defineEntry gid length producer period grace).1.StoreOk := by
  unfold State.defineEntry
  split
  · rename_i e l q _ hl _
    dsimp only
    split
    · exact h
    · rename_i hundef
      have hold : (s.entry e).current = none := by rw [(h.catalog e).eq_undefinedWith (not_not.mp hundef)]; rfl
      obtain ⟨hzero, hle, hpos⟩ := firstCountdown_spec period grace
      have hlen : 1 ≤ l.val := by
        unfold lengthOf at hl
        split at hl
        · rename_i hrange; cases hl; exact hrange.1
        · cases hl
      refine (h.setEntry (e := e) ?_ hold.symm).toNotify _
      exact ⟨hlen, rfl, rfl, rfl, rfl, rfl, hzero, hle, fun h0 => .inl (hpos h0)⟩
  · exact h

theorem State.StoreOk.setFreshness (h : s.StoreOk) (gid period grace : Half) :
    (s.setFreshness gid period grace).1.StoreOk := by
  unfold State.setFreshness
  split
  · exact h
  · dsimp only
    split
    · exact h
    · rename_i hdef
      exact h.setEntry ((h.catalog _).refreshed hdef period grace) rfl

/-! #### WDR -/

/-- An entry's current buffer, where it has one, leaves it (R34). -/
def State.leaveCurrent (s : State) (e : EntryId) : State :=
  match (s.entry e).current with
  | some b => s.retireBuffer b
  | none => s

theorem leaveCurrent_of_some {e : EntryId} {b : BufId} (h : (s.entry e).current = some b) :
    s.leaveCurrent e = s.retireBuffer b := by
  simp [State.leaveCurrent, h]

theorem leaveCurrent_of_none {e : EntryId} (h : (s.entry e).current = none) : s.leaveCurrent e = s := by
  simp [State.leaveCurrent, h]

theorem leaveCurrent_frame (s : State) (e : EntryId) :
    s.leaveCurrent e = { s with buffers := (s.leaveCurrent e).buffers, freeList := (s.leaveCurrent e).freeList } := by
  unfold State.leaveCurrent
  split
  · rw [retireBuffer_frame]
  · rfl

@[simp] theorem entry_leaveCurrent (s : State) (e e' : EntryId) : (s.leaveCurrent e).entry e' = s.entry e' := by
  rw [leaveCurrent_frame]; rfl

@[simp] theorem aperture_leaveCurrent (s : State) (e : EntryId) (p : Port) (a : ApIdx) :
    (s.leaveCurrent e).aperture p a = s.aperture p a := by
  rw [leaveCurrent_frame]; rfl

/-- The free list only grows when a buffer leaves its entry. -/
theorem length_freeList_leaveCurrent (s : State) (e : EntryId) : s.freeList.length ≤ (s.leaveCurrent e).freeList.length := by
  unfold State.leaveCurrent
  split
  · rename_i b _
    rcases retireBuffer_cases s b with ⟨-, h⟩ | ⟨-, h⟩ <;> rw [h] <;> simp
  · rfl

/-- An entry that its current buffer has left keeps the pool's agreement once it names no buffer. -/
theorem State.PoolOk.leaveCurrent (h : s.PoolOk) (e : EntryId) {x : Entry} (hx : x.current = none) :
    ((s.leaveCurrent e).setEntry e x).PoolOk := by
  cases hcur : (s.entry e).current with
  | some b => rw [leaveCurrent_of_some hcur]; exact h.leaveEntry hcur hx
  | none =>
    rw [leaveCurrent_of_none hcur]
    refine h.congr rfl (fun _ => rfl) (fun e' => ?_) (fun _ _ => rfl) fun _ _ => rfl
    rw [State.entry_setEntry]
    split
    · rename_i he; rw [← he, hx, hcur]
    · rfl

theorem pins_withdraw (e : EntryId) (g : Generation) (x : Aperture) : (x.withdraw e g).pins = x.pins := by
  unfold Aperture.withdraw
  split
  · split <;> rfl
  · split <;> rfl
  · rfl

theorem stages_withdraw (e : EntryId) (g : Generation) (x : Aperture) : (x.withdraw e g).stages = x.stages := by
  unfold Aperture.withdraw
  split
  · split <;> rfl
  · split <;> rfl
  · rfl

theorem retireBuffer_setEntry (s : State) (e : EntryId) (x : Entry) (b : BufId) :
    (s.setEntry e x).retireBuffer b = (s.retireBuffer b).setEntry e x := by
  unfold State.retireBuffer
  rw [State.setEntry_buffer]
  split <;> rfl

theorem retireBuffer_toNotify (s : State) (i : NuItem) (b : BufId) :
    (s.toNotify i).retireBuffer b = (s.retireBuffer b).toNotify i := by
  unfold State.retireBuffer
  rw [State.toNotify_buffer]
  split <;> rfl

/-- What an accepted WDR of entry `e` leaves (R17, R18): the steps of `State.withdrawEntry` with the buffer's leave first. -/
def State.withdrawn (s : State) (e : EntryId) : State :=
  (((s.leaveCurrent e).setEntry e (Entry.undefinedWith (s.entry e).generation)).reportEntry .withdrawn e (s.entry e).version
    s.timeBase none).mapApertures (Aperture.withdraw e (s.entry e).generation)

theorem withdrawEntry_eq {gid : Half} {e : EntryId} (he : entryOf gid = some e) (hdef : (s.entry e).state ≠ .undefined) :
    s.withdrawEntry gid = (s.withdrawn e, .ok, noResults) := by
  unfold State.withdrawEntry State.withdrawn State.leaveCurrent
  simp only [he, if_neg hdef]
  cases hcur : (s.entry e).current with
  | none => rfl
  | some b =>
    simp only [State.reportEntry, retireBuffer_setEntry, retireBuffer_toNotify]
    rfl

theorem entry_withdrawn (s : State) (e e' : EntryId) :
    (s.withdrawn e).entry e' = if e = e' then Entry.undefinedWith (s.entry e).generation else s.entry e' :=
  (State.entry_setEntry _ e _ e').trans (by rw [entry_leaveCurrent])

theorem aperture_withdrawn (s : State) (e : EntryId) (q : Port) (a : ApIdx) :
    (s.withdrawn e).aperture q a = (s.aperture q a).withdraw e (s.entry e).generation :=
  (State.aperture_mapApertures _ _ q a).trans (congrArg _ (aperture_leaveCurrent s e q a))

theorem withdrawn_frame (s : State) (e : EntryId) :
    s.withdrawn e = { s with
      catalog := (s.withdrawn e).catalog
      buffers := (s.leaveCurrent e).buffers
      freeList := (s.leaveCurrent e).freeList
      apertures := (s.withdrawn e).apertures
      nuInput := s.nuInput ++ [.entry { kind := .withdrawn, entry := e, version := (s.entry e).version, time := s.timeBase,
                                        origin := none }] } := by
  unfold State.withdrawn
  rw [leaveCurrent_frame]
  rfl

theorem State.StoreOk.withdrawEntry (h : s.StoreOk) (gid : Half) : (s.withdrawEntry gid).1.StoreOk := by
  cases he : entryOf gid with
  | none => simp only [State.withdrawEntry, he]; exact h
  | some e =>
    by_cases hdef : (s.entry e).state = .undefined
    · simp only [State.withdrawEntry, he, if_pos hdef]; exact h
    · rw [withdrawEntry_eq he hdef]
      unfold State.withdrawn
      refine State.StoreOk.mapApertures (State.StoreOk.toNotify ?_ _) (pins_withdraw e _) (stages_withdraw e _)
      refine ⟨fun e' => ?_, h.pool.leaveCurrent e rfl, ?_⟩
      · rw [State.entry_setEntry]
        split
        · exact ok_undefinedWith _
        · rw [entry_leaveCurrent]; exact h.catalog e'
      · rw [leaveCurrent_frame]; exact h.mem

/-! ### The tick keeps the store -/

theorem pins_markStale (cur : Option BufId) (x : Aperture) : (x.markStale cur).pins = x.pins := by
  unfold Aperture.markStale
  split
  · split <;> rfl
  · rfl

theorem stages_markStale (cur : Option BufId) (x : Aperture) : (x.markStale cur).stages = x.stages := by
  unfold Aperture.markStale
  split
  · split <;> rfl
  · rfl

theorem State.StoreOk.visitEntry (h : s.StoreOk) (n : Half) (e : EntryId) : (s.visitEntry n e).StoreOk := by
  have hcur : ((s.entry e).visited n).current = (s.entry e).current := by
    unfold Entry.visited
    split_ifs <;> rfl
  have hset := h.setEntry ((h.catalog e).visited n) hcur
  rcases visitEntry_cases s n e with ⟨-, -, heq⟩ | ⟨-, -, heq⟩ | ⟨-, heq⟩ <;> rw [heq]
  · exact (hset.mapApertures (pins_markStale _) (stages_markStale _)).toNotify _
  · exact hset.toNotify _
  · exact hset

theorem State.StoreOk.visits (h : s.StoreOk) (n : Half) (l : List EntryId) : (l.foldl (State.visitEntry n) s).StoreOk := by
  induction l generalizing s with
  | nil => exact h
  | cons e l ih => exact ih (h.visitEntry n e)

theorem State.StoreOk.takeTick (h : s.StoreOk) : s.takeTick.StoreOk := by
  have hbegun : State.StoreOk { s with owed := 0, tickWaiting := false, granted := none } := h.congr rfl rfl rfl rfl rfl
  have hvisits := hbegun.visits s.owed s.running
  unfold State.takeTick
  generalize s.running.foldl _ _ = u at hvisits ⊢
  rw [arbitrate_frame]
  exact hvisits.congr rfl rfl rfl rfl rfl

/-! ### PUB keeps the store -/

theorem pins_markUpdated (e : EntryId) (g : Generation) (x : Aperture) : (x.markUpdated e g).pins = x.pins := by
  unfold Aperture.markUpdated
  split
  · split <;> rfl
  · rfl

theorem stages_markUpdated (e : EntryId) (g : Generation) (x : Aperture) : (x.markUpdated e g).stages = x.stages := by
  unfold Aperture.markUpdated
  split
  · split <;> rfl
  · rfl

/-- A publication leaves a writer as it is. -/
theorem markUpdated_writing (e : EntryId) (g : Generation) (bind : Binding) (buf : BufId) (v : Version) :
    (Aperture.writing bind buf v).markUpdated e g = .writing bind buf v := rfl

/-- What `State.makeCurrent` does, record by record (R33, R76 to R78). -/
theorem makeCurrent_eq (s : State) (p : Port) (bind : Binding) (buf : BufId) :
    s.makeCurrent p bind buf =
      ((((s.leaveCurrent bind.entry).setBuffer buf { state := .current bind.entry, holds := 0 }).setEntry bind.entry
        ((s.entry bind.entry).published p buf s.timeBase)).mapApertures
          (Aperture.markUpdated bind.entry (s.entry bind.entry).generation)).reportEntry .published bind.entry
            ((s.entry bind.entry).version + 1) s.timeBase (some p) := by
  unfold State.makeCurrent State.leaveCurrent
  rfl

theorem entry_makeCurrent (s : State) (p : Port) (bind : Binding) (buf : BufId) (e : EntryId) :
    (s.makeCurrent p bind buf).entry e =
      if bind.entry = e then (s.entry bind.entry).published p buf s.timeBase else s.entry e := by
  rw [makeCurrent_eq]
  exact (State.entry_setEntry _ _ _ e).trans (by simp)

theorem aperture_makeCurrent (s : State) (p : Port) (bind : Binding) (buf : BufId) (q : Port) (c : ApIdx) :
    (s.makeCurrent p bind buf).aperture q c =
      (s.aperture q c).markUpdated bind.entry (s.entry bind.entry).generation := by
  rw [makeCurrent_eq]
  exact (State.aperture_mapApertures _ _ q c).trans (by simp)

/-- Publication leaves the Buffer Memory, and its free list only grows. -/
theorem mem_makeCurrent (s : State) (p : Port) (bind : Binding) (buf : BufId) : (s.makeCurrent p bind buf).mem = s.mem := by
  rw [makeCurrent_eq, leaveCurrent_frame]; rfl

theorem length_freeList_makeCurrent (s : State) (p : Port) (bind : Binding) (buf : BufId) :
    s.freeList.length ≤ (s.makeCurrent p bind buf).freeList.length := by
  rw [makeCurrent_eq]
  exact length_freeList_leaveCurrent s bind.entry

/-- A member's publication keeps the store once its aperture is CLOSED: the staged buffer has become the entry's current one and the
old one has left it (R33, R34, R79). -/
theorem State.StoreOk.publishClosed (h : s.StoreOk) {p : Port} {a : ApIdx} {bind : Binding} {buf : BufId} {base : Version}
    (hap : s.aperture p a = .writing bind buf base) (hdef : (s.entry bind.entry).state ≠ .undefined) :
    ((s.makeCurrent p bind buf).setAperture p a .closed).StoreOk := by
  refine ⟨fun e => ?_, ?_, by rw [State.setAperture_mem, mem_makeCurrent]; exact h.mem⟩
  · rw [State.setAperture_entry, entry_makeCurrent]
    split
    · exact (h.catalog bind.entry).published hdef p buf s.timeBase
    · exact h.catalog e
  · have hleft := h.pool.leaveCurrent bind.entry (x := { s.entry bind.entry with current := none }) rfl
    have hpub := hleft.promote (p := p) (a := a) (b := buf) (e := bind.entry)
      (x := (s.entry bind.entry).published p buf s.timeBase) (by simp [hap]) (by simp) rfl
    refine hpub.congr ?_ (fun b => ?_) (fun e => ?_) (fun q c => ?_) fun q c => ?_
    · rw [makeCurrent_eq]; rfl
    · rw [makeCurrent_eq]; rfl
    · rw [State.setAperture_entry, State.setAperture_entry, entry_makeCurrent, State.entry_setEntry]
      split
      · rfl
      · rename_i hne; simp [hne]
    all_goals
      rw [State.aperture_setAperture, State.aperture_setAperture]
      split
      · rfl
      · rw [aperture_makeCurrent]
        simp [pins_markUpdated, stages_markUpdated]

/-- Aperture `a` stages a value for a defined entry. -/
def State.WritesDefined (s : State) (p : Port) (a : ApIdx) : Prop :=
  ∃ bind buf base, s.aperture p a = .writing bind buf base ∧ (s.entry bind.entry).state ≠ .undefined

theorem writesDefined_of_pubCheck {p : Port} {a : ApIdx} {conditional : Bool} {ans : Vector Answer 8}
    (h : s.pubCheck p conditional ans a = none) : s.WritesDefined p a := by
  unfold State.pubCheck at h
  split at h
  · cases h
  · cases h
  · cases h
  · rename_i bind buf base hap
    dsimp only at h
    split_ifs at h with hright hgone
    exact ⟨bind, buf, base, hap, fun hu => hgone (.inl hu)⟩

theorem Allocated.setAperture {p : Port} {a : ApIdx} {f : WordIdx → Word} {b : BufId} {u : State} (h : Allocated s p a f b u)
    (x : Aperture) : Allocated (s.setAperture p a x) p a f b (u.setAperture p a x) where
  freeList := h.freeList
  buffer := h.buffer
  entry := h.entry
  aperture q d := by rw [State.aperture_setAperture, State.aperture_setAperture, h.aperture]
  mem := h.mem

/-- The end of a published member: the aperture is CLOSED, or it stands on a buffer allocated for it (R79, R80). -/
theorem endMember_cases (s : State) (p : Port) (retain : Bool) (a : ApIdx) (bind : Binding) (buf : BufId)
    (hfree : retain = true → s.freeList ≠ []) :
    (retain = false ∧ s.endMember p retain a bind buf = s.setAperture p a .closed) ∨
      (retain = true ∧ ∃ f nb u v, Allocated s p a f nb u ∧
        s.endMember p retain a bind buf = u.setAperture p a (.writing bind nb v)) := by
  cases retain with
  | false => exact .inl ⟨rfl, rfl⟩
  | true =>
    obtain ⟨nb, rest, hlist⟩ := List.exists_cons_of_ne_nil (hfree rfl)
    refine .inr ⟨rfl, copyFill s.mem buf (s.entry bind.entry).length, nb, _, (s.entry bind.entry).version,
      allocated_of_allocate ((allocate_eq_some s p a _ nb _).mpr ⟨rest, hlist, rfl⟩), ?_⟩
    simp [State.endMember, State.allocate, hlist]

theorem State.StoreOk.publishMember (h : s.StoreOk) {p : Port} {a : ApIdx} (hw : s.WritesDefined p a) {retain : Bool}
    (hfree : retain = true → s.freeList ≠ []) : (s.publishMember p retain a).StoreOk := by
  obtain ⟨bind, buf, base, hap, hdef⟩ := hw
  have hclosed := h.publishClosed hap hdef
  have hfree' : retain = true → (s.makeCurrent p bind buf).freeList ≠ [] := fun hr hnil => by
    have := length_freeList_makeCurrent s p bind buf
    rw [hnil] at this
    exact hfree hr (List.length_eq_zero_iff.mp (Nat.le_zero.mp this))
  simp only [State.publishMember, hap]
  rcases endMember_cases (s.makeCurrent p bind buf) p retain a bind buf hfree' with ⟨-, heq⟩ | ⟨-, f, nb, u, v, hu, heq⟩ <;>
    rw [heq]
  · exact hclosed
  · rw [← setAperture_setAperture u p a .closed]
    exact hclosed.openWriter (by simp) (hu.setAperture .closed) bind v

@[simp] theorem besidesPool_endMember (s : State) (p : Port) (retain : Bool) (a : ApIdx) (bind : Binding) (buf : BufId) :
    (s.endMember p retain a bind buf).besidesPool = s.besidesPool := by
  unfold State.endMember
  split
  · dsimp only
    split
    · rename_i hu
      obtain ⟨rest, -, rfl⟩ := (allocate_eq_some _ _ _ _ _ _).mp hu
      rfl
    · rfl
  · rfl

theorem aperture_endMember_ne (s : State) (p : Port) (retain : Bool) {a c : ApIdx} (hne : a ≠ c) (bind : Binding) (buf : BufId) :
    (s.endMember p retain a bind buf).aperture p c = s.aperture p c := by
  unfold State.endMember
  split
  · dsimp only
    split
    · rename_i hu
      rw [State.aperture_setAperture, if_neg fun h => hne h.2, (allocated_of_allocate hu).aperture]
    · rfl
  · rw [State.aperture_setAperture, if_neg fun h => hne h.2]

/-- The end of a member takes one buffer at most from the free list. -/
theorem length_freeList_endMember (s : State) (p : Port) (retain : Bool) (a : ApIdx) (bind : Binding) (buf : BufId) :
    s.freeList.length ≤ (s.endMember p retain a bind buf).freeList.length + 1 := by
  unfold State.endMember
  split
  · dsimp only
    split
    · rename_i hu
      rw [State.setAperture_freeList, (allocated_of_allocate hu).freeList]; rfl
    · exact Nat.le_succ _
  · exact Nat.le_succ _

/-- A publication leaves an entry, or publishes it. -/
theorem entry_publishMember (s : State) (p : Port) (retain : Bool) (a : ApIdx) (e : EntryId) :
    (s.publishMember p retain a).entry e = s.entry e ∨
      ∃ buf, (s.publishMember p retain a).entry e = (s.entry e).published p buf s.timeBase := by
  unfold State.publishMember
  split
  · rename_i bind buf _ _
    rw [entry_of_besidesPool (besidesPool_endMember ..), entry_makeCurrent]
    split
    · rename_i he; exact .inr ⟨buf, by rw [he]⟩
    · exact .inl rfl
  · exact .inl rfl

/-- A publication of another member leaves what a member writes and keeps its entry defined. -/
theorem State.WritesDefined.publishMember {p : Port} {a c : ApIdx} (h : s.WritesDefined p c) (hne : a ≠ c) (retain : Bool) :
    (s.publishMember p retain a).WritesDefined p c := by
  obtain ⟨bind, buf, base, hap, hdef⟩ := h
  refine ⟨bind, buf, base, ?_, ?_⟩
  · unfold State.publishMember
    split
    · rw [aperture_endMember_ne _ _ _ hne, aperture_makeCurrent, hap, markUpdated_writing]
    · exact hap
  · rcases entry_publishMember s p retain a bind.entry with heq | ⟨b, heq⟩ <;> rw [heq]
    · exact hdef
    · simp [Entry.published]

theorem length_freeList_publishMember (s : State) (p : Port) (retain : Bool) (a : ApIdx) :
    s.freeList.length ≤ (s.publishMember p retain a).freeList.length + 1 := by
  unfold State.publishMember
  split
  · exact (length_freeList_makeCurrent s p _ _).trans (length_freeList_endMember _ _ _ _ _ _)
  · exact Nat.le_succ _

/-- PUB keeps the store: each member still writes for a defined entry when its turn comes, and with RETAIN the free list holds a
buffer for each member still to come (R71, R74). -/
theorem State.StoreOk.publish (h : s.StoreOk) (p : Port) (mask : Byte) (conditional retain : Bool) (ans : Vector Answer 8) :
    (s.publish p mask conditional retain ans).1.StoreOk := by
  unfold State.publish
  split
  · exact h
  · rename_i hchecks
    split
    · exact h
    · rename_i hroom
      have hlen : retain = true → (members mask).length ≤ s.freeList.length := fun hr => by
        rwa [hr, if_pos rfl, List.getElem?_eq_none_iff] at hroom
      have hready : ∀ a ∈ members mask, s.WritesDefined p a := fun a ha =>
        writesDefined_of_pubCheck ((firstFailure_eq_none _ _).mp hchecks a ha)
      refine (foldl_invariant (I := fun u l => u.StoreOk ∧ l.Nodup ∧ (∀ a ∈ l, u.WritesDefined p a) ∧
        (retain = true → l.length ≤ u.freeList.length)) ?_ s (members mask) ⟨h, members_nodup mask, hready, hlen⟩).1
      rintro u a l ⟨hu, hnodup, hw, hl⟩
      obtain ⟨hnot, hnodup⟩ := List.nodup_cons.mp hnodup
      refine ⟨hu.publishMember (hw a List.mem_cons_self) fun hr hnil => ?_, hnodup, fun c hc => ?_, fun hr => ?_⟩
      · simpa [hnil] using hl hr
      · exact (hw c (List.mem_cons_of_mem a hc)).publishMember (a := a) (fun hac => hnot (hac ▸ hc)) retain
      · have := (hl hr).trans (length_freeList_publishMember u p retain a)
        simpa using this

end

end Sys2Proof.Machine
end

section
/-! PROOF. Catalog, pool and Buffer Memory stay in agreement at every step (O53), from the state after reset on. -/

namespace Sys2Proof.Machine

/-! ### The state after reset -/

/-- Every block in its reset state, with given Port Interfaces and a given queue: the state after reset, and what DEVICE_RESET
leaves. -/
def State.resetWith (ports : Vector PortIf 4) (pending : List Instr) : State :=
  { State.reset with ports := ports, pending := pending }

theorem reset_eq_resetWith : State.reset = State.resetWith (Vector.replicate 4 (PortIf.offline false)) [] := by
  simp only [State.resetWith, State.reset]

theorem exec_deviceReset (s : State) :
    exec .deviceReset s = .next (.resetWith (s.ports.map fun pi => PortIf.afterReset pi.presence) s.pending) := rfl

section
variable (ports : Vector PortIf 4) (pending : List Instr)

@[simp] theorem entry_resetWith (e : EntryId) : (State.resetWith ports pending).entry e = Entry.undefinedWith 0 := by
  simp [State.entry, State.resetWith, State.reset]

@[simp] theorem buffer_resetWith (b : BufId) :
    (State.resetWith ports pending).buffer b = { state := .free, holds := 0 } := by
  simp [State.buffer, State.resetWith, State.reset]

@[simp] theorem freeList_resetWith : (State.resetWith ports pending).freeList = List.finRange 384 := by
  dsimp only [State.resetWith, State.reset]

@[simp] theorem aperture_resetWith (p : Port) (a : ApIdx) : (State.resetWith ports pending).aperture p a = .closed := by
  simp [State.aperture, State.resetWith, State.reset]

@[simp] theorem grant_resetWith (p : Port) (i : GrantIdx) : (State.resetWith ports pending).grant p i = Grant.disabled := by
  simp [State.grant, State.resetWith, State.reset]

@[simp] theorem subscription_resetWith (p : Port) (e : EntryId) :
    (State.resetWith ports pending).subscription p e = Subscription.absent := by
  simp [State.subscription, State.resetWith, State.reset]

@[simp] theorem ring_resetWith (p : Port) : (State.resetWith ports pending).ring p = Ring.cleared := by
  simp [State.ring, State.resetWith, State.reset]

@[simp] theorem port_resetWith (p : Port) : (State.resetWith ports pending).port p = ports[p] := rfl

theorem pinCount_resetWith (b : BufId) : (State.resetWith ports pending).pinCount b = 0 := by
  rw [pinCount_eq_card, Finset.card_eq_zero, State.readersOf, Finset.filter_eq_empty_iff]
  simp

theorem resetWith_storeOk : (State.resetWith ports pending).StoreOk where
  catalog e := by rw [entry_resetWith]; exact ok_undefinedWith 0
  pool := (poolOk_iff _).mpr ⟨by rw [freeList_resetWith]; exact List.nodup_finRange 384, fun b =>
    bufferOk_of_free (buffer_resetWith _ _ b) (by simp) (by simp) (by simp [Entry.undefinedWith])
      (pinCount_resetWith ports pending b)⟩
  mem := Memory.nil_wf

end

/-! ### Every step keeps the store -/

section
variable {s t : State}

theorem State.StoreOk.held (h : s.StoreOk) : s.held.StoreOk := h.congr rfl rfl rfl rfl rfl

/-- The store lies among the held fields. -/
theorem storeOk_of_held {u : State} (held : t.held = u) (hu : u.StoreOk) : t.StoreOk := by
  subst held
  exact hu.congr rfl rfl rfl rfl rfl

theorem StoreAnswer.storeOk {p : Port} {i : Instr} {r : Answered} (h : s.StoreOk) (hr : StoreAnswer s p i r) : r.1.StoreOk := by
  cases hr with
  | ord mask locals ans => exact h.openRead p mask locals ans
  | ref mask => exact h.refresh p mask
  | owr l a zero ans => exact h.openWrite p l a zero ans
  | pub mask conditional retain ans => exact h.publish p mask conditional retain ans
  | cls mask => exact h.closeAll p (members mask)
  | ins ans =>
    unfold State.inspect
    split
    · exact h
    · split <;> exact h
  | pst => exact h
  | define gid length producer period grace => exact h.defineEntry gid length producer period grace
  | wdr gid => exact h.withdrawEntry gid
  | sfr gid period grace => exact h.setFreshness gid period grace
  | spt threshold =>
    unfold State.setThreshold
    split
    · exact h
    · exact h.congr rfl rfl rfl rfl rfl

theorem exec_storeOk {i : Instr} (h : s.StoreOk) (hi : exec i s = .next t) : t.StoreOk := by
  cases exec_effect hi with
  | traffic held | subscriptions _ held | grants _ held | time _ _ _ _ _ held =>
    exact storeOk_of_held held (h.congr rfl rfl rfl rfl rfl)
  | claim _ change => exact storeOk_of_held change.held (h.congr rfl rfl rfl rfl rfl)
  | data _ _ b w v _ held =>
    have hwritten : State.StoreOk { s with mem := s.mem.writeWord b w v } :=
      ⟨h.catalog, h.pool.congr rfl (fun _ => rfl) (fun _ => rfl) (fun _ _ => rfl) fun _ _ => rfl,
        Memory.writeWord_wf s.mem h.mem b w v⟩
    exact storeOk_of_held held (hwritten.congr rfl rfl rfl rfl rfl)
  | tick taken => rw [taken]; exact h.takeTick
  | store p r row taken =>
    rw [taken, finishStore_frame]
    exact (row.storeOk h).congr rfl rfl rfl rfl rfl
  | teardown p held => exact storeOk_of_held held (h.closeAll p (List.finRange 8)).held
  | reset _ taken =>
    obtain rfl := Host.Outcome.next.inj ((exec_deviceReset s).symm.trans taken)
    exact resetWith_storeOk _ _

theorem held_microsecond (s : State) :
    ∃ now phase owed waiting, s.microsecond.held =
      { s.held with timeBase := now, phase := phase, owed := owed, tickWaiting := waiting } := by
  unfold State.microsecond
  dsimp only
  split
  · exact ⟨_, _, _, _, held_arbitrate _⟩
  · exact ⟨_, _, _, _, rfl⟩

/-- Settles O53: every row has one of the effects of `exec_effect`, and each of them keeps the store. -/
theorem everyStepKeepsTheStoreInvariant : Obligations.EveryStepKeepsTheStoreInvariant := by
  intro s t h hstep
  unfold step at hstep
  split at hstep
  · injection hstep with ht
    obtain ⟨_, _, _, _, held⟩ := held_microsecond s
    exact ht ▸ storeOk_of_held held (h.congr rfl rfl rfl rfl rfl)
  · rename_i c rest _
    have hrest : State.StoreOk { s with pending := rest } := h.congr rfl rfl rfl rfl rfl
    exact exec_storeOk hrest hstep

end

end Sys2Proof.Machine
end

section
/-! PROOF. The catalog's commands at SC's turn: DEF (O30), WDR (O31), SFR (O32), the refusals (O33) and INS (O34). -/

namespace Sys2Proof.Machine

section
variable {s : State} {p : Port} {c : Pending}

/-! ### A command whose turn has come -/

theorem exec_define (h : s.storeTurn p c) {gid : Half} {length producer : Byte} {period grace : Half}
    (hreq : c.req = .define gid length producer period grace) :
    exec (.define p) s = .next (s.finishStore p (s.defineEntry gid length producer period grace)) := by
  obtain ⟨req, stage, locals, answers⟩ := c
  subst hreq
  simp only [exec, execDefine, (storeCommand_eq_some s p _).mpr h]

theorem exec_wdr (h : s.storeTurn p c) {gid : Half} (hreq : c.req = .wdr gid) :
    exec (.wdr p) s = .next (s.finishStore p (s.withdrawEntry gid)) := by
  obtain ⟨req, stage, locals, answers⟩ := c
  subst hreq
  simp only [exec, execWdr, (storeCommand_eq_some s p _).mpr h]

theorem exec_sfr (h : s.storeTurn p c) {gid period grace : Half} (hreq : c.req = .sfr gid period grace) :
    exec (.sfr p) s = .next (s.finishStore p (s.setFreshness gid period grace)) := by
  obtain ⟨req, stage, locals, answers⟩ := c
  subst hreq
  simp only [exec, execSfr, (storeCommand_eq_some s p _).mpr h]

theorem exec_spt (h : s.storeTurn p c) {threshold : Half} (hreq : c.req = .spt threshold) :
    exec (.spt p) s = .next (s.finishStore p (s.setThreshold threshold)) := by
  obtain ⟨req, stage, locals, answers⟩ := c
  subst hreq
  simp only [exec, execSpt, (storeCommand_eq_some s p _).mpr h]

theorem exec_ins (h : s.storeTurn p c) {l : LocalNo} (hreq : c.req = .ins l) :
    exec (.ins p) s = .next (s.finishStore p (s.inspect c.answers[0])) := by
  obtain ⟨req, stage, locals, answers⟩ := c
  subst hreq
  simp only [exec, execIns, (storeCommand_eq_some s p _).mpr h]

theorem exec_sgr (h : s.standsAt p c .access) {target index : Byte} {count localBase globalBase : Half} {rights : Rights}
    (hreq : c.req = .sgr target index count localBase globalBase rights) :
    exec (.sgr p) s =
      let r := s.replaceGrant target index count localBase globalBase rights
      .next (r.1.complete p r.2.1 r.2.2) := by
  obtain ⟨req, stage, locals, answers⟩ := c
  subst hreq
  simp only [exec, execSgr, (commandAt_eq_some s p .access _).mpr h]

/-- A store event over which the free count does not fall hands no crossing (R38). -/
theorem finishStore_of_length_le {u : State} (h : s.freeList.length ≤ u.freeList.length) (st : Status) (rw : Results) :
    s.finishStore p (u, st, rw) = State.complete { u with granted := none } p st rw := by
  simp only [State.finishStore, State.endStoreEvent]
  rw [if_neg (by omega)]

theorem finishStore_refuse (st : Status) (rw : Results) : s.finishStore p (s.refuse st rw) = s.refusedWith p st rw :=
  finishStore_of_length_le le_rfl st rw

end

/-! ### Fields that name something -/

theorem entryOf_eq_some {gid : Half} {e : EntryId} (h : gid.toNat = e.val) : entryOf gid = some e := by
  simp [entryOf, h]

theorem entryOf_eq_none {gid : Half} (h : 512 ≤ gid.toNat) : entryOf gid = none := by
  simp [entryOf, h]

theorem lengthOf_eq_some {b : Byte} {l : Fin 17} (h : b.toNat = l.val) (hl : 1 ≤ l.val) : lengthOf b = some l := by
  simp [lengthOf, h, hl]

theorem lengthOf_eq_none {b : Byte} (h : b.toNat = 0 ∨ 16 < b.toNat) : lengthOf b = none := by
  simp only [lengthOf, dite_eq_right_iff, reduceCtorEq, imp_false]
  omega

theorem producerOf_port {b : Byte} {k : Port} (h : b.toNat = k.val) : producerOf b = some (.port k) := by
  obtain rfl : b = BitVec.ofNat 8 k.val := BitVec.eq_of_toNat_eq (by simp; omega)
  revert k
  decide

/-- A producer field above 4 names no producer, and every other one does (R13, R169). -/
theorem producerOf_eq_none_iff (b : Byte) : producerOf b = none ↔ 4 < b.toNat := by
  unfold producerOf
  split_ifs with h0 h1 h2 h3 h4
  · simp [h0]
  · simp [h1]
  · simp [h2]
  · simp [h3]
  · simp [h4]
  · simp only [true_iff]
    bv_omega

theorem resultWords_eq (l : List Word) :
    resultWords l = #v[l.getD 0 0, l.getD 1 0, l.getD 2 0, l.getD 3 0, l.getD 4 0, l.getD 5 0, l.getD 6 0, l.getD 7 0,
      l.getD 8 0, l.getD 9 0] := rfl

theorem zero_append_eq_setWidth (x : Half) : 0#16 ++ x = x.setWidth 32 := by
  apply BitVec.eq_of_toNat_eq
  rw [BitVec.toNat_append, BitVec.toNat_setWidth]
  simp
  omega

/-! ### DEF -/

/-- Settles O30: every field that R14 gives is the one that the model's `State.defineEntry` writes. -/
theorem defineMakesTheEntryEmpty : Obligations.DefineMakesTheEntryEmpty := by
  intro s p c gid length producer period grace e l q hturn hreq hgid hlength hl hq hundef
  have hprod : producerOf producer = some q := by
    rcases hq with ⟨k, hk, rfl⟩ | ⟨rfl, rfl⟩
    · exact producerOf_port hk
    · rfl
  rw [exec_define hturn hreq, State.defineEntry, entryOf_eq_some hgid, lengthOf_eq_some hlength hl, hprod]
  simp only [ne_eq, hundef, not_true_eq_false, if_false]
  rw [finishStore_of_length_le (by exact le_rfl), resultWords_eq, zero_append_eq_setWidth]
  rfl

/-! ### WDR -/

/-- A buffer that leaves its entry is RETIRED if held and joins the free list if not; every other one stays (R34). -/
theorem retireBuffer_spec (s : State) (b : BufId) :
    (∀ b', b' ≠ b → (s.retireBuffer b).buffer b' = s.buffer b') ∧
      (0 < (s.buffer b).holds → (s.retireBuffer b).buffer b = { state := .retired, holds := (s.buffer b).holds } ∧
        (s.retireBuffer b).freeList = s.freeList) ∧
      ((s.buffer b).holds = 0 → (s.retireBuffer b).buffer b = { state := .free, holds := 0 } ∧
        (s.retireBuffer b).freeList = s.freeList ++ [b]) := by
  rcases retireBuffer_cases s b with ⟨hheld, heq⟩ | ⟨hunheld, heq⟩ <;> rw [heq]
  · exact ⟨fun b' hne => by simp [Ne.symm hne], fun _ => by simp, fun h0 => by omega⟩
  · exact ⟨fun b' hne => by simp [Ne.symm hne], fun hh => by omega, fun _ => by simp⟩

/-- The model's withdrawal of an aperture in the statement's words (R18). -/
theorem withdraw_eq (e : EntryId) (g : Generation) (x : Aperture) :
    x.withdraw e g =
      match x with
      | .reading b buf v t f =>
        if b.entry = e ∧ b.generation = g then .reading b buf v t { f with gone := true } else .reading b buf v t f
      | .writing b buf v => if b.entry = e ∧ b.generation = g then .orphaned b buf v else .writing b buf v
      | x => x := by
  cases x with
  | closed | orphaned => rfl
  | reading b buf v t f => simp [Aperture.withdraw, Binding.boundTo]
  | writing b buf v => simp [Aperture.withdraw, Binding.boundTo]

/-- Settles O31: the accepted WDR is `State.withdrawn`, whose records are read off one by one. -/
theorem withdrawRemovesTheDefinition : Obligations.WithdrawRemovesTheDefinition := by
  intro s p c gid e hturn hreq hgid hdef
  have hlen : s.freeList.length ≤ (s.withdrawn e).freeList.length := length_freeList_leaveCurrent s e
  rw [exec_wdr hturn hreq, withdrawEntry_eq (entryOf_eq_some hgid) hdef, finishStore_of_length_le hlen]
  refine ⟨s.withdrawn e, rfl, ?_, fun e' hne => ?_, fun hcur => ?_, fun b hcur => ?_, fun q a => ?_, withdrawn_frame s e⟩
  · rw [entry_withdrawn, if_pos rfl]; rfl
  · rw [entry_withdrawn, if_neg (Ne.symm hne)]
  · rw [withdrawn_frame, leaveCurrent_of_none hcur]; exact ⟨rfl, rfl⟩
  · rw [withdrawn_frame, leaveCurrent_of_some hcur]; exact retireBuffer_spec s b
  · exact (aperture_withdrawn s e q a).trans (withdraw_eq e _ _)

/-! ### SFR -/

theorem sfrCountdown_eq {st : EntryState} (period grace : Half) :
    sfrCountdown st period grace =
      match st with
      | .empty => if period = 0 then 0 else if grace = 0 then period else grace
      | .current => period
      | _ => 0 := by
  cases st <;> rfl

/-- Settles O32: the countdown by the entry's state is `sfrCountdown`. -/
theorem setFreshnessReloadsTheCountdown : Obligations.SetFreshnessReloadsTheCountdown := by
  intro s p c gid period grace e hturn hreq hgid hdef
  rw [exec_sfr hturn hreq, State.setFreshness, entryOf_eq_some hgid]
  simp only [hdef, if_false]
  rw [finishStore_of_length_le (by exact le_rfl), sfrCountdown_eq]
  rfl

/-! ### Refusals -/

section
variable {s : State}

theorem defineEntry_badParam {gid : Half} {length producer : Byte} {period grace : Half}
    (h : 512 ≤ gid.toNat ∨ length.toNat = 0 ∨ 16 < length.toNat ∨ 4 < producer.toNat) :
    s.defineEntry gid length producer period grace = s.refuse .badParam := by
  unfold State.defineEntry
  split
  · rename_i e l q he hl hq
    rcases h with h | h | h | h
    · rw [entryOf_eq_none h] at he; cases he
    · rw [lengthOf_eq_none (.inl h)] at hl; cases hl
    · rw [lengthOf_eq_none (.inr h)] at hl; cases hl
    · rw [(producerOf_eq_none_iff producer).mpr h] at hq; cases hq
  · rfl

theorem defineEntry_alreadyDefined {gid : Half} {length producer : Byte} {period grace : Half} {e : EntryId}
    (he : gid.toNat = e.val) (hlength : 1 ≤ length.toNat ∧ length.toNat ≤ 16) (hproducer : producer.toNat ≤ 4)
    (hdef : (s.entry e).state ≠ .undefined) :
    s.defineEntry gid length producer period grace = s.refuse .alreadyDefined := by
  obtain ⟨q, hq⟩ := Option.ne_none_iff_exists'.mp (mt (producerOf_eq_none_iff producer).mp (by omega))
  have hl : lengthOf length = some ⟨length.toNat, by omega⟩ := lengthOf_eq_some rfl hlength.1
  simp only [State.defineEntry, entryOf_eq_some he, hl, hq, if_pos hdef]

theorem withdrawEntry_badParam {gid : Half} (h : 512 ≤ gid.toNat) : s.withdrawEntry gid = s.refuse .badParam := by
  simp only [State.withdrawEntry, entryOf_eq_none h]

theorem withdrawEntry_undefined {gid : Half} {e : EntryId} (he : gid.toNat = e.val) (hundef : (s.entry e).state = .undefined) :
    s.withdrawEntry gid = s.refuse .undefined := by
  simp only [State.withdrawEntry, entryOf_eq_some he, if_pos hundef]

theorem setFreshness_badParam {gid period grace : Half} (h : 512 ≤ gid.toNat) :
    s.setFreshness gid period grace = s.refuse .badParam := by
  simp only [State.setFreshness, entryOf_eq_none h]

theorem setFreshness_undefined {gid period grace : Half} {e : EntryId} (he : gid.toNat = e.val)
    (hundef : (s.entry e).state = .undefined) : s.setFreshness gid period grace = s.refuse .undefined := by
  simp only [State.setFreshness, entryOf_eq_some he, if_pos hundef]

theorem setThreshold_badParam {threshold : Half} (h : 384 ≤ threshold.toNat) :
    s.setThreshold threshold = s.refuse .badParam := by
  have hnone : thresholdOf threshold = none := dif_neg (by omega)
  simp only [State.setThreshold, hnone]

/-- The parameters of an SGR that R117 excludes. -/
theorem grantAsked_eq_none {count localBase globalBase : Half} {rights : Rights}
    (h : 512 < count.toNat ∨ count ≠ 0 ∧ (4095 < localBase.toNat ∨ 511 < globalBase.toNat ∨
      4096 < localBase.toNat + count.toNat ∨ 512 < globalBase.toNat + count.toNat ∨
        rights = { read := false, write := false })) : grantAsked count localBase globalBase rights = none := by
  have hcount : count ≠ 0 := by
    rcases h with h | h
    · rintro rfl; simp at h
    · exact h.1
  simp only [grantAsked, if_neg hcount, dite_eq_right_iff, ite_eq_right_iff, reduceCtorEq, imp_false]
  rintro ⟨hc, hlocal, hglobal⟩ ⟨hlrun, hgrun, hrights⟩
  rcases h with h | ⟨-, h | h | h | h | rfl⟩
  · omega
  · omega
  · omega
  · omega
  · omega
  · simp at hrights

theorem replaceGrant_badParam {target index : Byte} {count localBase globalBase : Half} {rights : Rights}
    (h : 4 ≤ target.toNat ∨ 8 ≤ index.toNat ∨ grantAsked count localBase globalBase rights = none) :
    s.replaceGrant target index count localBase globalBase rights = s.refuse .badParam := by
  unfold State.replaceGrant
  split
  · rename_i q i g hq hi hg
    rcases h with h | h | h
    · simp [portOf, h] at hq
    · simp [grantIdxOf, h] at hi
    · rw [h] at hg; cases hg
  · rfl

end

/-- Settles O33: each refusal of the model, at the boundary of its check, and what a refusal leaves. -/
theorem configurationRefusalsChangeNothing : Obligations.ConfigurationRefusalsChangeNothing := by
  intro s p c
  refine ⟨fun hturn => ⟨fun gid length producer period grace hreq => ⟨fun hbad => ?_, fun hgood hdef => ?_⟩,
    fun gid hreq => ⟨fun hbad => ?_, fun hundef => ?_⟩,
    fun gid period grace hreq => ⟨fun hbad => ?_, fun hundef => ?_⟩, fun t hreq hbad => ?_⟩,
    fun hstands target index count localBase globalBase rights hreq hbad => ?_⟩
  · rw [exec_define hturn hreq, defineEntry_badParam hbad, finishStore_refuse]; rfl
  · obtain ⟨e, he, hdef⟩ := hdef
    rw [exec_define hturn hreq, defineEntry_alreadyDefined he.symm (by omega) (by omega) hdef, finishStore_refuse]; rfl
  · rw [exec_wdr hturn hreq, withdrawEntry_badParam hbad, finishStore_refuse]; rfl
  · obtain ⟨e, he, hundef⟩ := hundef
    rw [exec_wdr hturn hreq, withdrawEntry_undefined he.symm hundef, finishStore_refuse]; rfl
  · rw [exec_sfr hturn hreq, setFreshness_badParam hbad, finishStore_refuse]; rfl
  · obtain ⟨e, he, hundef⟩ := hundef
    rw [exec_sfr hturn hreq, setFreshness_undefined he.symm hundef, finishStore_refuse]; rfl
  · rw [exec_spt hturn hreq, setThreshold_badParam hbad, finishStore_refuse]; rfl
  · rw [exec_sgr hstands hreq, replaceGrant_badParam (hbad.imp_right (Or.imp_right grantAsked_eq_none))]; rfl

/-! ### INS -/

/-- Two halves of a word as one number. -/
theorem append_halves (x y : Half) : x ++ y = BitVec.ofNat 32 (y.toNat + 65536 * x.toNat) := by
  apply BitVec.eq_of_toNat_eq
  rw [BitVec.toNat_append, ← Nat.shiftLeft_add_eq_or_of_lt y.isLt, Nat.shiftLeft_eq, BitVec.toNat_ofNat]
  omega

/-- Two bytes above a half word as one number. -/
theorem append_bytes (x y : Byte) (z : Half) :
    x ++ y ++ z = BitVec.ofNat 32 (z.toNat + 65536 * y.toNat + 16777216 * x.toNat) := by
  apply BitVec.eq_of_toNat_eq
  rw [BitVec.toNat_append, BitVec.toNat_append, ← Nat.shiftLeft_add_eq_or_of_lt z.isLt,
    ← Nat.shiftLeft_add_eq_or_of_lt y.isLt, Nat.shiftLeft_eq, Nat.shiftLeft_eq, BitVec.toNat_ofNat]
  omega

theorem toNat_code (st : EntryState) :
    st.code.toNat = match st with | .undefined => 0 | .empty => 1 | .current => 2 | .stale => 3 := by
  cases st <;> rfl

theorem toNat_producerCode (q : Option Producer) :
    (producerCode q).toNat = match q with | none => 255 | some (.port q) => q.val | some .shared => 4 := by
  match q with
  | none | some .shared => rfl
  | some (.port q) => simp [producerCode]; omega

theorem toNat_portCode (q : Option Port) : (portCode q).toNat = match q with | none => 255 | some q => q.val := by
  cases q with
  | none => rfl
  | some q => simp [portCode]; omega

theorem toNat_bufferCode (b : Option BufId) : (bufferCode b).toNat = match b with | none => 0xFFFF | some b => b.val := by
  cases b with
  | none => rfl
  | some b => simp [bufferCode]; omega

theorem timeLow_eq_setWidth (t : Time) : timeLow t = t.setWidth 32 := by
  apply BitVec.eq_of_toNat_eq
  simp [timeLow]

theorem timeHigh_eq_setWidth (t : Time) : timeHigh t = (t >>> 32).setWidth 32 := by
  apply BitVec.eq_of_toNat_eq
  have := t.isLt
  rw [timeHigh, zero_append_eq_setWidth]
  simp [Nat.shiftRight_eq_div_pow]
  omega

/-- Settles O34: the words of Table 10-5 as numbers, field by field. -/
theorem inspectReturnsTheEntry : Obligations.InspectReturnsTheEntry := by
  intro s p c l hturn hreq
  rw [exec_ins hturn hreq]
  refine ⟨fun hans => ?_, fun e r hans hr => ?_, fun e r hans hr => ?_⟩
  · rw [hans, State.inspect, finishStore_refuse]; rfl
  · simp only [hans, State.inspect, hr, Bool.not_false, if_true, finishStore_refuse]; rfl
  · simp only [hans, State.inspect, hr, Bool.not_true, Bool.false_eq_true, if_false]
    rw [finishStore_of_length_le (by exact le_rfl), Entry.results, resultWords_eq, append_bytes, append_bytes, append_halves,
      append_halves, zero_append_eq_setWidth, toNat_code, toNat_producerCode, toNat_portCode, toNat_bufferCode,
      timeLow_eq_setWidth, timeHigh_eq_setWidth]
    have hlen : (BitVec.ofNat 8 (s.entry e).length.val).toNat = (s.entry e).length.val := by simp; omega
    have hid : (BitVec.ofNat 16 e.val).toNat = e.val := by simp; omega
    rw [hlen, hid]
    cases (s.entry e).publishTime <;> rfl

end Sys2Proof.Machine
end

section
/-! PROOF. Device reset (O17), and the invariants of the state after it (O59). -/

namespace Sys2Proof.Machine

/-! ### DEVICE_RESET -/

/-- A Port Interface after reset in the statement's words (R166). -/
theorem portIf_afterReset_eq (presence : Bool) :
    PortIf.afterReset presence =
      { session := if presence then .unattached else .offline, presence := presence, slot := none, cmdWord := 0,
        params := Vector.replicate 4 0, status := .ok, results := Vector.replicate 10 0, latch := 0, mask := 0,
        fault := { code := none, aperture := none, later := 0 }, notices := [], crossings := 0, overflowClears := 0,
        overflowRaised := false } := by
  cases presence <;> rfl

theorem interrupt_afterReset (presence : Bool) : (PortIf.afterReset presence).interrupt = false := by
  cases presence <;> decide

/-- Settles O17: DEVICE_RESET leaves `State.resetWith`, whose records are read off one by one. -/
theorem deviceResetClearsEveryBlock : Obligations.DeviceResetClearsEveryBlock := by
  intro s
  refine ⟨_, exec_deviceReset s, entry_resetWith _ _, buffer_resetWith _ _, ?_, rfl, Memory.readWord_nil, aperture_resetWith _ _,
    rfl, rfl, rfl, rfl, rfl, rfl, grant_resetWith _ _, fun p e => ?_, ring_resetWith _ _, rfl, rfl, rfl, fun p => ?_, fun p => ?_,
    rfl⟩
  · rw [freeList_resetWith, List.map_coe_finRange_eq_range]
  · rw [subscription_resetWith]; exact ⟨rfl, rfl⟩
  · simp only [port_resetWith, Fin.getElem_fin, Vector.getElem_map, portIf_afterReset_eq]
    rfl
  · simp only [State.interrupt, port_resetWith, Fin.getElem_fin, Vector.getElem_map, interrupt_afterReset]

/-! ### The state after reset -/

/-- Settles O59: every invariant, from what the records hold after reset. -/
theorem resetSatisfiesEveryInvariant : Obligations.ResetSatisfiesEveryInvariant := by
  unfold Obligations.ResetSatisfiesEveryInvariant
  rw [reset_eq_resetWith]
  have hport : ∀ p : Port, (State.resetWith (Vector.replicate 4 (PortIf.offline false)) []).port p = PortIf.offline false :=
    fun p => by simp
  refine ⟨⟨List.nodup_nil, nofun, fun _ => rfl⟩, fun p => ?_, resetWith_storeOk _ _, ?_, ?_, fun p => ?_, fun p i => ?_, ?_, ?_⟩
  · rw [ring_resetWith]
    exact ⟨Nat.zero_le 64, fun i hi => absurd hi (Nat.not_lt_zero i), List.Pairwise.nil⟩
  · exact ⟨fun p a b buf v t f h => by simp at h, fun p a b buf v h => by simp at h, fun p a a' e h => by simp at h⟩
  · exact ⟨fun e b w h => by simp [Entry.undefinedWith] at h, fun p a x b w h => by simp [Aperture.binding] at h⟩
  · rw [hport]
    exact ⟨⟨rfl, fun h => absurd rfl h, fun _ => rfl, nofun⟩, List.not_mem_nil⟩
  · rw [grant_resetWith]
    rfl
  · exact ⟨fun p => by rw [hport]; rfl, fun p => by rw [hport]; rfl, fun p => by rw [hport]; rfl⟩
  · exact ⟨fun _ => ⟨rfl, fun p => by rw [hport]; rfl⟩, nofun, nofun⟩

end Sys2Proof.Machine
end

section
/-! PROOF. What may change a generation, a version, the grants, the subscriptions, the holder and the time base (O58). -/

namespace Sys2Proof.Machine

/-! ### What the store's events leave in the other blocks -/

/-- The state with everything blanked out but what the Access Checker, the Notification Unit's subscriptions, the Claim Unit and
the time base hold: a store event leaves it. -/
def State.beyondStore (s : State) : State :=
  { s.held.besidesPool with catalog := State.reset.catalog, threshold := 0, owed := 0, tickWaiting := false }

section
variable {s t : State}

theorem entry_of_held (h : t.held = s.held) (e : EntryId) : t.entry e = s.entry e := (congrArg (·.entry e) h :)

theorem beyondStore_of_held (h : t.held = s.held) : t.beyondStore = s.beyondStore := by
  unfold State.beyondStore; rw [h]

theorem beyondStore_of_besidesPool (h : t.besidesPool = s.besidesPool) : t.beyondStore = s.beyondStore := by
  have hswap : ∀ u : State, u.beyondStore = u.besidesPool.beyondStore := fun _ => rfl
  rw [hswap, h, ← hswap]

theorem beyondStore_publishMember (s : State) (p : Port) (retain : Bool) (a : ApIdx) :
    (s.publishMember p retain a).beyondStore = s.beyondStore := by
  unfold State.publishMember
  split
  · rw [beyondStore_of_besidesPool (besidesPool_endMember ..), makeCurrent_eq, leaveCurrent_frame]
    rfl
  · rfl

theorem beyondStore_takeTick (s : State) : s.takeTick.beyondStore = s.beyondStore := by
  have hframe := takeTick_frame s
  generalize s.takeTick = u at hframe ⊢
  rw [hframe]
  rfl

theorem StoreAnswer.beyondStore {p : Port} {i : Instr} {r : Answered} (hr : StoreAnswer s p i r) :
    r.1.beyondStore = s.beyondStore := by
  cases hr with
  | ord mask locals ans =>
    unfold State.openRead
    split
    · rfl
    · exact beyondStore_of_besidesPool (foldl_keeps s State.besidesPool _ (by simp) _)
  | ref mask =>
    unfold State.refresh
    split
    · rfl
    · exact beyondStore_of_besidesPool (foldl_keeps s State.besidesPool _ (by simp) _)
  | owr l a zero ans =>
    unfold State.openWrite
    split
    · rfl
    · rfl
    · dsimp only
      split
      · rfl
      · rename_i hu
        obtain ⟨rest, -, rfl⟩ := (allocate_eq_some _ _ _ _ _ _).mp hu
        rfl
  | pub mask conditional retain ans =>
    unfold State.publish
    split
    · rfl
    · split
      · rfl
      · exact foldl_keeps s State.beyondStore _ (fun u a => beyondStore_publishMember u p retain a) _
  | cls mask => exact beyondStore_of_besidesPool (besidesPool_closeAll s p _)
  | ins ans =>
    unfold State.inspect
    split
    · rfl
    · split <;> rfl
  | pst => rfl
  | define gid length producer period grace =>
    unfold State.defineEntry
    split
    · dsimp only; split <;> rfl
    · rfl
  | wdr gid =>
    cases he : entryOf gid with
    | none => simp only [State.withdrawEntry, he]; rfl
    | some e =>
      by_cases hdef : (s.entry e).state = .undefined
      · simp only [State.withdrawEntry, he, if_pos hdef]; rfl
      · rw [withdrawEntry_eq he hdef, withdrawn_frame]; rfl
  | sfr gid period grace =>
    unfold State.setFreshness
    split
    · rfl
    · dsimp only; split <;> rfl
  | spt threshold =>
    unfold State.setThreshold
    split <;> rfl

/-- What a row other than DEVICE_RESET makes of the other blocks: nothing, or what its own block gives. -/
theorem RowEffect.beyondStore {i : Instr} (h : RowEffect i s t) (hi : i ≠ .deviceReset) :
    t.beyondStore = s.beyondStore ∨
      (((∃ p, i = .sub p) ∨ ∃ p, i = .teardownNu p) ∧ t.beyondStore = { s.beyondStore with subs := t.subs }) ∨
      (((∃ p, i = .cla p) ∨ (∃ p, i = .rel p) ∨ ∃ p, i = .teardownCu p) ∧ ClaimChange s t) ∨
      ((∃ p, i = .sgr p) ∧ t.held = { s.held with grants := t.grants } ∧ t.nuInput = s.nuInput) ∨
      (i = .millisecondExpiry ∧ t.beyondStore = { s.beyondStore with timeBase := t.timeBase, phase := t.phase }) := by
  cases h with
  | traffic held => exact .inl (beyondStore_of_held held)
  | subscriptions row held => exact .inr (.inl ⟨row, by unfold State.beyondStore; rw [held]; rfl⟩)
  | claim row change => exact .inr (.inr (.inl ⟨row, change⟩))
  | grants row held input => exact .inr (.inr (.inr (.inl ⟨row, held, input⟩)))
  | time row now phase owed waiting held =>
    have hnow : t.timeBase = now := (congrArg State.timeBase held :)
    have hphase : t.phase = phase := (congrArg State.phase held :)
    exact .inr (.inr (.inr (.inr ⟨row, by unfold State.beyondStore; rw [held, hnow, hphase]; rfl⟩)))
  | data _ _ b w v _ held => exact .inl (by unfold State.beyondStore; rw [held]; rfl)
  | tick taken => exact .inl (taken ▸ beyondStore_takeTick s)
  | store p r row taken =>
    have hfinish : (s.finishStore p r).beyondStore = r.1.beyondStore := by rw [finishStore_frame]; rfl
    exact .inl (by rw [taken, hfinish, row.beyondStore])
  | teardown p held => exact .inl ((beyondStore_of_held held).trans (beyondStore_of_besidesPool (besidesPool_closeAll s p _)))
  | reset row _ => exact absurd row hi

/-! ### What the store's events make of an entry -/

/-- What row `i`, taken for port `p` at a time, makes of the generation and the version of an entry. -/
inductive EntryChange (i : Instr) (now : Time) (x y : Entry) : Prop
  | kept (generation : y.generation = x.generation) (version : y.version = x.version)
  | defined (row : ∃ p, i = .define p) (state : x.state = .undefined) (generation : y.generation = x.generation + 1)
    (version : y.version = 0)
  | withdrawn (row : ∃ p, i = .wdr p) (generation : y.generation = x.generation) (version : y.version = 0)
  | published (p : Port) (row : i = .pub p) (generation : y.generation = x.generation) (publisher : y.publisher = some p)
    (time : y.publishTime = some now)

theorem EntryChange.refl {i : Instr} {now : Time} {x : Entry} : EntryChange i now x x := .kept rfl rfl

theorem EntryChange.of_eq {i : Instr} {now : Time} {x y : Entry} (h : y = x) : EntryChange i now x y := h ▸ .refl

/-- Members published one by one, an entry among them once or more, make of it what one publication makes. -/
theorem entryChange_publish (p : Port) (retain : Bool) (l : List ApIdx) (e : EntryId) :
    EntryChange (.pub p) s.timeBase (s.entry e) ((l.foldl (fun s a => s.publishMember p retain a) s).entry e) := by
  have hfold := foldl_invariant (f := fun s a => s.publishMember p retain a)
    (I := fun u _ => u.timeBase = s.timeBase ∧ (u.entry e).generation = (s.entry e).generation ∧
      ((u.entry e).version = (s.entry e).version ∨
        (u.entry e).publisher = some p ∧ (u.entry e).publishTime = some s.timeBase)) ?_ s l ⟨rfl, rfl, .inl rfl⟩
  · obtain ⟨-, hgen, hver | ⟨hpub, htime⟩⟩ := hfold
    · exact .kept hgen hver
    · exact .published p rfl hgen hpub htime
  · rintro u a l ⟨hnow, hgen, hver⟩
    refine ⟨(congrArg State.timeBase (beyondStore_publishMember u p retain a) :).trans hnow, ?_⟩
    rcases entry_publishMember u p retain a e with heq | ⟨buf, heq⟩ <;> rw [heq]
    · exact ⟨hgen, hver⟩
    · exact ⟨hgen, .inr ⟨rfl, congrArg some hnow⟩⟩

theorem StoreAnswer.entryChange {p : Port} {i : Instr} {r : Answered} (hr : StoreAnswer s p i r) (e : EntryId) :
    EntryChange i s.timeBase (s.entry e) (r.1.entry e) := by
  cases hr with
  | ord mask locals ans =>
    unfold State.openRead
    split
    · exact .refl
    · exact .of_eq (entry_of_besidesPool (foldl_keeps s State.besidesPool _ (by simp) _) e)
  | ref mask =>
    unfold State.refresh
    split
    · exact .refl
    · exact .of_eq (entry_of_besidesPool (foldl_keeps s State.besidesPool _ (by simp) _) e)
  | owr l a zero ans =>
    unfold State.openWrite
    split
    · exact .refl
    · exact .refl
    · dsimp only
      split
      · exact .refl
      · rename_i hu
        exact .of_eq ((allocated_of_allocate hu).entry e)
  | pub mask conditional retain ans =>
    unfold State.publish
    split
    · exact .refl
    · split
      · exact .refl
      · exact entryChange_publish p retain _ e
  | cls mask => exact .of_eq (entry_of_besidesPool (besidesPool_closeAll s p _) e)
  | ins ans =>
    unfold State.inspect
    split
    · exact .refl
    · split <;> exact .refl
  | pst => exact .refl
  | define gid length producer period grace =>
    unfold State.defineEntry
    split
    · rename_i e' l q _ _ _
      dsimp only
      split
      · exact .refl
      · rename_i hundef
        simp only [State.reportEntry, State.toNotify_entry, State.entry_setEntry]
        split
        · rename_i he
          subst he
          exact .defined ⟨p, rfl⟩ (not_not.mp hundef) rfl rfl
        · exact .refl
    · exact .refl
  | wdr gid =>
    cases he : entryOf gid with
    | none => simp only [State.withdrawEntry, he]; exact .refl
    | some e' =>
      by_cases hdef : (s.entry e').state = .undefined
      · simp only [State.withdrawEntry, he, if_pos hdef]; exact .refl
      · rw [withdrawEntry_eq he hdef, entry_withdrawn]
        split
        · rename_i hee
          subst hee
          exact .withdrawn ⟨p, rfl⟩ rfl rfl
        · exact .refl
  | sfr gid period grace =>
    unfold State.setFreshness
    split
    · exact .refl
    · dsimp only
      split
      · exact .refl
      · rw [State.entry_setEntry]
        split
        · rename_i he
          subst he
          exact .kept rfl rfl
        · exact .refl
  | spt threshold =>
    unfold State.setThreshold
    split <;> exact .refl

theorem entryChange_visited {i : Instr} {now : Time} (n : Half) (x : Entry) : EntryChange i now x (x.visited n) := by
  unfold Entry.visited
  split
  · exact .kept rfl rfl
  · split <;> exact .kept rfl rfl

theorem RowEffect.entryChange {i : Instr} (h : RowEffect i s t) (hi : i ≠ .deviceReset) (e : EntryId) :
    EntryChange i s.timeBase (s.entry e) (t.entry e) := by
  cases h with
  | traffic held | subscriptions _ held | grants _ held _ | time _ _ _ _ _ held | data _ _ _ _ _ _ held =>
    exact .of_eq (congrArg (·.entry e) held :)
  | claim _ change => exact .of_eq (congrArg (·.entry e) change.held :)
  | tick taken => rw [taken, entry_takeTick]; exact entryChange_visited s.owed (s.entry e)
  | store p r row taken =>
    rw [taken, finishStore_frame]
    exact row.entryChange e
  | teardown p held =>
    exact .of_eq ((entry_of_held held e).trans (entry_of_besidesPool (besidesPool_closeAll s p _) e))
  | reset row _ => exact absurd row hi

/-! ### The rules -/

/-- Settles O58: generations and versions by `RowEffect.entryChange`, the other fields by `RowEffect.beyondStore`. -/
theorem onlyTheirOwnEventsChangeThem : Obligations.OnlyTheirOwnEventsChangeThem := by
  intro i s t hcat hexec hi
  have heffect := exec_effect hexec
  refine ⟨fun e hne => ?_, fun e hne => ?_, fun hne => ?_, fun hne => ?_, fun hne => ?_, fun hne => ?_⟩
  · cases heffect.entryChange hi e with
    | defined row state generation version => exact ⟨row, generation, state⟩
    | kept generation _ | withdrawn _ generation _ | published _ _ generation _ _ => exact absurd generation hne
  · cases heffect.entryChange hi e with
    | kept _ version => exact absurd version hne
    | defined _ state _ version =>
      rw [version, (hcat e).eq_undefinedWith state] at hne
      exact absurd rfl hne
    | withdrawn row _ version => exact .inl ⟨row, version⟩
    | published p row _ publisher time => exact .inr ⟨p, row, publisher, time⟩
  · rcases heffect.beyondStore hi with h | ⟨-, h⟩ | ⟨-, h⟩ | ⟨⟨p, rfl⟩, held, input⟩ | ⟨-, h⟩
    · exact absurd (congrArg State.grants h :) hne
    · exact absurd (congrArg State.grants h :) hne
    · exact absurd (congrArg State.grants h.held :) hne
    · exact ⟨p, rfl, input, (congrArg State.apertures held :), (congrArg State.subs held :)⟩
    · exact absurd (congrArg State.grants h :) hne
  · rcases heffect.beyondStore hi with h | ⟨row, -⟩ | ⟨-, h⟩ | ⟨-, h, -⟩ | ⟨-, h⟩
    · exact absurd (congrArg State.subs h :) hne
    · exact row
    · exact absurd (congrArg State.subs h.held :) hne
    · exact absurd (congrArg State.subs h :) hne
    · exact absurd (congrArg State.subs h :) hne
  · rcases heffect.beyondStore hi with h | ⟨-, h⟩ | ⟨row, change⟩ | ⟨-, h, -⟩ | ⟨-, h⟩
    · exact absurd (congrArg State.holder h :) hne
    · exact absurd (congrArg State.holder h :) hne
    · obtain ⟨reported, handed⟩ := change.moved hne
      exact ⟨row, reported, handed⟩
    · exact absurd (congrArg State.holder h :) hne
    · exact absurd (congrArg State.holder h :) hne
  · rcases heffect.beyondStore hi with h | ⟨-, h⟩ | ⟨-, h⟩ | ⟨-, h, -⟩ | ⟨row, -⟩
    · exact absurd (congrArg State.timeBase h :) hne
    · exact absurd (congrArg State.timeBase h :) hne
    · exact absurd (congrArg State.timeBase h.held :) hne
    · exact absurd (congrArg State.timeBase h :) hne
    · exact row

end

end Sys2Proof.Machine
end

section
/-! SUPPORT. The values that stand in the Buffer Memory: which buffers an entry or an open aperture names, with which length, and
what a change of names or of words makes of the words beyond the length (R32). -/

namespace Sys2Proof.Machine

/-! ### Named values -/

/-- The buffer that an open aperture pins or stages, with the length recorded at its open. -/
def Aperture.value : Aperture → Option (BufId × Fin 17)
  | .closed => none
  | .reading bind b _ _ _ => some (b, bind.length)
  | .writing bind b _ => some (b, bind.length)
  | .orphaned bind b _ => some (b, bind.length)

theorem value_eq_some_iff (x : Aperture) (b : BufId) (l : Fin 17) :
    x.value = some (b, l) ↔ ∃ bind, x.binding = some bind ∧ x.bufferOf = some b ∧ bind.length = l := by
  cases x <;> simp [Aperture.value, Aperture.binding, Aperture.bufferOf]

/-- An aperture that holds a buffer pins it or stages it. -/
theorem pins_or_stages_of_value {x : Aperture} {b : BufId} {l : Fin 17} (h : x.value = some (b, l)) :
    x.pins = some b ∨ x.stages = some b := by
  cases x with
  | closed => cases h
  | reading => cases h; exact .inl rfl
  | writing | orphaned => cases h; exact .inr rfl

/-- Buffer `b` holds a value of `l` words that an entry or an open aperture names. -/
inductive State.Names (s : State) (b : BufId) (l : Fin 17) : Prop
  | entry (e : EntryId) (current : (s.entry e).current = some b) (length : (s.entry e).length = l)
  | aperture (p : Port) (a : ApIdx) (value : (s.aperture p a).value = some (b, l))

/-- The words beyond the length are 0 in the buffers named (R32). -/
theorem tailsOk_iff (s : State) :
    s.TailsOk ↔ ∀ b l, s.Names b l → ∀ w : WordIdx, l.val ≤ w.val → s.mem.readWord b w = 0 := by
  constructor
  · rintro ⟨entries, apertures⟩ b l (⟨e, current, rfl⟩ | ⟨p, a, value⟩) w hw
    · exact entries e b w current hw
    · obtain ⟨bind, hbind, hbuf, rfl⟩ := (value_eq_some_iff _ _ _).mp value
      exact apertures p a bind b w hbind hbuf hw
  · intro h
    exact ⟨fun e b w current hw => h b _ (.entry e current rfl) w hw, fun p a bind b w hbind hbuf hw =>
      h b _ (.aperture p a ((value_eq_some_iff _ _ _).mpr ⟨bind, hbind, hbuf, rfl⟩)) w hw⟩

section
variable {s t : State} {b : BufId} {l : Fin 17}

/-- Entries and apertures that name what they named, or nothing, leave no new name. -/
theorem State.Names.of_records (h : t.Names b l)
    (hentry : ∀ e, (t.entry e).current = some b →
      (s.entry e).current = some b ∧ (s.entry e).length = (t.entry e).length)
    (hap : ∀ p a, (t.aperture p a).value = (s.aperture p a).value ∨ (t.aperture p a).value = none) : s.Names b l := by
  cases h with
  | entry e current length =>
    obtain ⟨hcur, hlen⟩ := hentry e current
    exact .entry e hcur (hlen.trans length)
  | aperture p a value =>
    rcases hap p a with heq | hnone
    · exact .aperture p a (heq ▸ value)
    · rw [hnone] at value; cases value

/-- A new aperture record adds the name it holds. -/
theorem names_setAperture {p : Port} {a : ApIdx} {x : Aperture} (h : (s.setAperture p a x).Names b l) :
    x.value = some (b, l) ∨ s.Names b l := by
  cases h with
  | entry e current length => exact .inr (.entry e current length)
  | aperture q d value =>
    rw [State.aperture_setAperture] at value
    split at value
    · exact .inl value
    · exact .inr (.aperture q d value)

/-! ### The pool and the names -/

/-- A buffer that nobody holds is pinned by no aperture (R27). -/
theorem State.PoolOk.not_pinned (h : s.PoolOk) (hb : (s.buffer b).holds = 0) (p : Port) (a : ApIdx) :
    (s.aperture p a).pins ≠ some b := by
  intro hp
  have hpos : 0 < (s.readersOf b).card := Finset.card_pos.mpr ⟨(p, a), (mem_readersOf s b (p, a)).mpr hp⟩
  rw [← pinCount_eq_card, ← h.holds, hb] at hpos
  exact Nat.lt_irrefl 0 hpos

/-- Nothing names a FREE buffer (R25). -/
theorem State.PoolOk.not_names_free (h : s.PoolOk) (hb : b ∈ s.freeList) : ¬s.Names b l := by
  have hstate := (h.free b).mp hb
  rintro (⟨e, current, -⟩ | ⟨p, a, value⟩)
  · rw [(h.current b e).mpr current] at hstate; cases hstate
  · rcases pins_or_stages_of_value value with hp | hst
    · exact h.not_pinned (h.unheld b (.inl hstate)) p a hp
    · rw [(h.staged b p a).mpr hst] at hstate; cases hstate

/-- A STAGED buffer is named by the aperture that stages it alone (R25). -/
theorem State.PoolOk.value_of_names_staged (h : s.PoolOk) {p : Port} {a : ApIdx} (hst : (s.aperture p a).stages = some b)
    (hn : s.Names b l) : (s.aperture p a).value = some (b, l) := by
  obtain ⟨hstate, hholds⟩ := h.staged_unheld hst
  rcases hn with ⟨e, current, -⟩ | ⟨q, d, value⟩
  · rw [(h.current b e).mpr current] at hstate; cases hstate
  · rcases pins_or_stages_of_value value with hp | hq
    · exact absurd hp (h.not_pinned hholds q d)
    · obtain ⟨rfl, rfl⟩ := h.stages_unique hst hq
      exact value

/-! ### The words beyond the length -/

/-- Names that stood before, over the memory as it was, keep the words beyond the length 0. -/
theorem State.TailsOk.of_names (h : s.TailsOk) (hmem : t.mem = s.mem) (hn : ∀ b l, t.Names b l → s.Names b l) : t.TailsOk :=
  (tailsOk_iff t).mpr fun b l hb w hw => hmem ▸ (tailsOk_iff s).mp h b l (hn b l hb) w hw

/-- The words beyond the length rest on the catalog, the apertures and the Buffer Memory. -/
theorem State.TailsOk.congr (h : s.TailsOk) (hcat : t.catalog = s.catalog) (hap : t.apertures = s.apertures)
    (hmem : t.mem = s.mem) : t.TailsOk :=
  h.of_names hmem fun _ _ hb => hb.of_records
    (fun e => by unfold State.entry; rw [hcat]; exact fun hcur => ⟨hcur, rfl⟩)
    fun p a => by unfold State.aperture; rw [hap]; exact .inl rfl

/-- A word below its length written into a staged buffer leaves the words beyond (R64). -/
theorem State.TailsOk.writeWord (h : s.TailsOk) (hs : s.StoreOk) {p : Port} {a : ApIdx} {w : WordIdx}
    (hst : (s.aperture p a).stages = some b) (hval : (s.aperture p a).value = some (b, l)) (hw : w.val < l.val) (v : Word) :
    State.TailsOk { s with mem := s.mem.writeWord b w v } := by
  refine (tailsOk_iff _).mpr fun c k hc x hx => ?_
  have hc' : s.Names c k := hc.of_records (fun _ hcur => ⟨hcur, rfl⟩) fun _ _ => .inl rfl
  have hold := (tailsOk_iff s).mp h c k hc' x hx
  simp only [Memory.readWord_writeWord s.mem hs.mem]
  split
  · rename_i hcx
    obtain ⟨rfl, rfl⟩ := hcx
    cases hval.symm.trans (hs.pool.value_of_names_staged hst hc')
    omega
  · exact hold

/-- An aperture opened on a newly allocated buffer, filled with zeros beyond the length (R32, R59, R80). -/
theorem State.TailsOk.openWriter (h : s.TailsOk) (hs : s.StoreOk) {p : Port} {a : ApIdx} {f : WordIdx → Word} {u : State}
    (hu : Allocated s p a f b u) {bind : Binding} (hf : ∀ w, bind.length.val ≤ w.val → f w = 0) (v : Version) :
    (u.setAperture p a (.writing bind b v)).TailsOk := by
  refine (tailsOk_iff _).mpr fun c k hc x hx => ?_
  rw [State.setAperture_mem, hu.mem, Memory.readWord_fill s.mem hs.mem]
  rcases names_setAperture hc with hnew | hold
  · cases hnew
    rw [if_pos rfl, hf x hx]
  · have hc' : s.Names c k := hold.of_records (fun e => by rw [hu.entry]; exact fun hcur => ⟨hcur, rfl⟩)
      fun q d => by rw [hu.aperture]; exact .inl rfl
    have hfree : b ∈ s.freeList := by simp [hu.freeList]
    have hne : c ≠ b := fun hcb => hs.pool.not_names_free hfree (hcb ▸ hc')
    rw [if_neg hne]
    exact (tailsOk_iff s).mp h c k hc' x hx

/-- A closed aperture names nothing (R61). -/
theorem State.TailsOk.setClosed (h : s.TailsOk) (p : Port) (a : ApIdx) : (s.setAperture p a .closed).TailsOk :=
  h.of_names rfl fun _ _ hb => (names_setAperture hb).resolve_left nofun

end

end Sys2Proof.Machine
end

section
/-! SUPPORT. The store's events keep the words beyond the length 0 (R32), command by command. -/

namespace Sys2Proof.Machine

section
variable {s t : State} {p : Port} {a : ApIdx}

/-! ### Entries and flags replaced -/

theorem State.TailsOk.setEntry (h : s.TailsOk) {e : EntryId} {x : Entry}
    (hx : x.current = none ∨ x.current = (s.entry e).current ∧ x.length = (s.entry e).length) : (s.setEntry e x).TailsOk := by
  refine h.of_names rfl fun b l hb => hb.of_records (fun e' => ?_) fun _ _ => .inl rfl
  rw [State.entry_setEntry]
  split
  · rename_i he
    subst he
    rcases hx with hnone | ⟨hcur, hlen⟩
    · simp [hnone]
    · rw [hcur, hlen]; exact fun hc => ⟨hc, rfl⟩
  · exact fun hc => ⟨hc, rfl⟩

theorem State.TailsOk.mapApertures (h : s.TailsOk) {f : Aperture → Aperture} (hf : ∀ x, (f x).value = x.value) :
    (s.mapApertures f).TailsOk :=
  h.of_names rfl fun _ _ hb => hb.of_records (fun _ hc => ⟨hc, rfl⟩) fun q d =>
    .inl (by rw [State.aperture_mapApertures, hf])

theorem State.TailsOk.toNotify (h : s.TailsOk) (i : NuItem) : (s.toNotify i).TailsOk := h.congr rfl rfl rfl

theorem value_withdraw (e : EntryId) (g : Generation) (x : Aperture) : (x.withdraw e g).value = x.value := by
  unfold Aperture.withdraw
  split
  · split <;> rfl
  · split <;> rfl
  · rfl

theorem value_markStale (cur : Option BufId) (x : Aperture) : (x.markStale cur).value = x.value := by
  unfold Aperture.markStale
  split
  · split <;> rfl
  · rfl

theorem value_markUpdated (e : EntryId) (g : Generation) (x : Aperture) : (x.markUpdated e g).value = x.value := by
  unfold Aperture.markUpdated
  split
  · split <;> rfl
  · rfl

/-! ### The catalog's commands and the tick -/

theorem State.TailsOk.defineEntry (h : s.TailsOk) (gid : Half) (length producer : Byte) (period grace : Half) :
    (s.defineEntry gid length producer period grace).1.TailsOk := by
  unfold State.defineEntry
  split
  · dsimp only
    split
    · exact h
    · exact (h.setEntry (.inl rfl)).toNotify _
  · exact h

theorem State.TailsOk.setFreshness (h : s.TailsOk) (gid period grace : Half) : (s.setFreshness gid period grace).1.TailsOk := by
  unfold State.setFreshness
  split
  · exact h
  · dsimp only
    split
    · exact h
    · exact h.setEntry (.inr ⟨rfl, rfl⟩)

theorem State.TailsOk.leaveCurrent (h : s.TailsOk) (e : EntryId) : (s.leaveCurrent e).TailsOk := by
  rw [leaveCurrent_frame]
  exact h.congr rfl rfl rfl

theorem State.TailsOk.withdrawEntry (h : s.TailsOk) (gid : Half) : (s.withdrawEntry gid).1.TailsOk := by
  cases he : entryOf gid with
  | none => simp only [State.withdrawEntry, he]; exact h
  | some e =>
    by_cases hdef : (s.entry e).state = .undefined
    · simp only [State.withdrawEntry, he, if_pos hdef]; exact h
    · rw [withdrawEntry_eq he hdef]
      exact (((h.leaveCurrent e).setEntry (.inl rfl)).toNotify _).mapApertures (value_withdraw e _)

theorem State.TailsOk.visitEntry (h : s.TailsOk) (n : Half) (e : EntryId) : (s.visitEntry n e).TailsOk := by
  have hset : (s.setEntry e ((s.entry e).visited n)).TailsOk := h.setEntry (.inr (by
    unfold Entry.visited
    split_ifs <;> exact ⟨rfl, rfl⟩))
  rcases visitEntry_cases s n e with ⟨-, -, heq⟩ | ⟨-, -, heq⟩ | ⟨-, heq⟩ <;> rw [heq]
  · exact (hset.mapApertures (value_markStale _)).toNotify _
  · exact hset.toNotify _
  · exact hset

theorem State.TailsOk.takeTick (h : s.TailsOk) : s.takeTick.TailsOk := by
  have hvisits : ∀ (l : List EntryId) (u : State), u.TailsOk → (l.foldl (State.visitEntry s.owed) u).TailsOk := by
    intro l
    induction l with
    | nil => exact fun _ hu => hu
    | cons e l ih => exact fun u hu => ih _ (hu.visitEntry s.owed e)
  have hbegun : State.TailsOk { s with owed := 0, tickWaiting := false, granted := none } := h.congr rfl rfl rfl
  have hdone := hvisits s.running _ hbegun
  unfold State.takeTick
  generalize s.running.foldl _ _ = u at hdone ⊢
  rw [arbitrate_frame]
  exact hdone.congr rfl rfl rfl

/-! ### ORD, REF and CLS -/

/-- An entry's current buffer pinned under the entry's length (R53, R56). -/
theorem State.TailsOk.pinEntry (h : s.TailsOk) (p : Port) (a : ApIdx) {bind : Binding} {e : EntryId}
    (hlen : bind.length = (s.entry e).length) : (s.pinEntry p a bind (s.entry e)).TailsOk := by
  unfold State.pinEntry
  split
  · exact h
  · rename_i b hcur
    refine h.of_names rfl fun c l hc => (names_setAperture hc).elim (fun hnew => ?_) fun hold =>
      hold.of_records (fun _ hc => ⟨hc, rfl⟩) fun _ _ => .inl rfl
    cases hnew
    exact .entry e hcur hlen.symm

theorem State.TailsOk.openRead (h : s.TailsOk) (p : Port) (mask : Byte) (locals : Vector LocalNo 8) (ans : Vector Answer 8) :
    (s.openRead p mask locals ans).1.TailsOk := by
  unfold State.openRead
  split
  · exact h
  · refine foldl_invariant (I := fun u _ => u.TailsOk) (fun u a _ hu => ?_) s _ h
    unfold State.ordMember
    split
    · exact hu
    · exact hu.pinEntry p a rfl

/-- Aperture `a`, where it reads, recorded the length that its entry has. -/
def State.ReadsLength (s : State) (p : Port) (a : ApIdx) : Prop :=
  ∀ bind buf v t f, s.aperture p a = .reading bind buf v t f → bind.length = (s.entry bind.entry).length

/-- A reader that REF accepts is not GONE, so it belongs to the present definition (R44, R55). -/
theorem readsLength_of_refCheck (hb : s.BindingsOk) (h : s.refCheck p a = none) : s.ReadsLength p a := by
  intro bind buf v t f hap
  have hreader := hb.readers p a bind buf v t f hap
  simp only [State.refCheck, hap] at h
  split_ifs at h with hgone _
  have hlive : f.gone = false := Bool.eq_false_iff.mpr fun hg => hgone (.inl hg)
  simp only [State.ReaderOk, hlive, Bool.false_eq_true, if_false] at hreader
  obtain ⟨-, -, hlen, -⟩ := hreader
  exact hlen.symm

theorem State.TailsOk.refMember (h : s.TailsOk) (hr : s.ReadsLength p a) : (s.refMember p a).TailsOk := by
  unfold State.refMember
  split
  · rename_i bind buf v t f hap
    dsimp only
    split
    · refine h.of_names rfl fun c l hc => (names_setAperture hc).elim (fun hnew => .aperture p a ?_) id
      rw [hap]; exact hnew
    · have hreleased : (s.releasePin buf).TailsOk := by rw [releasePin_frame]; exact h.congr rfl rfl rfl
      rw [← entry_releasePin s buf bind.entry]
      exact hreleased.pinEntry p a (by rw [entry_releasePin]; exact hr bind buf v t f hap)
  · exact h

theorem State.TailsOk.refresh (h : s.TailsOk) (hb : s.BindingsOk) (p : Port) (mask : Byte) :
    (s.refresh p mask).1.TailsOk := by
  unfold State.refresh
  split
  · exact h
  · rename_i hchecks
    refine foldl_members (P := State.TailsOk) (ready := fun u a => u.ReadsLength p a) (fun u a hu ha => hu.refMember ha)
      (fun u a c _ hc hne => ?_) s (members mask) (members_nodup mask) h
      fun a ha => readsLength_of_refCheck hb ((firstFailure_eq_none _ _).mp hchecks a ha)
    unfold State.ReadsLength at hc ⊢
    rw [aperture_refMember_ne u p hne]
    simpa only [entry_of_besidesPool (besidesPool_refMember u p a)] using hc

theorem State.TailsOk.closeAll (h : s.TailsOk) (p : Port) (l : List ApIdx) : (s.closeAll p l).TailsOk := by
  refine h.of_names (by rw [closeAll_frame]) fun _ _ hb => hb.of_records (fun e => ?_) fun q d => ?_
  · rw [entry_of_besidesPool (besidesPool_closeAll s p l)]
    exact fun hc => ⟨hc, rfl⟩
  · rw [aperture_closeAll]
    split
    · exact .inr rfl
    · exact .inl rfl

/-! ### OWR and PUB -/

theorem copyFill_eq_zero (m : Memory) (b : BufId) {length : Fin 17} {w : WordIdx} (h : length.val ≤ w.val) :
    copyFill m b length w = 0 := if_neg (by omega)

/-- Every fill writes zeros beyond the entry's length (R31, R32). -/
theorem fillFor_eq_zero (s : State) (zero : Bool) {x : Entry} {w : WordIdx} (h : x.length.val ≤ w.val) :
    s.fillFor zero x w = 0 := by
  unfold State.fillFor
  split
  · rfl
  · cases x.current with
    | none => rfl
    | some b => exact copyFill_eq_zero s.mem b h

theorem State.TailsOk.openWrite (h : s.TailsOk) (hs : s.StoreOk) (p : Port) (l : LocalNo) (a : ApIdx) (zero : Bool)
    (ans : Answer) : (s.openWrite p l a zero ans).1.TailsOk := by
  unfold State.openWrite
  split
  · exact h
  · exact h
  · dsimp only
    split
    · exact h
    · rename_i hu
      exact h.openWriter hs (allocated_of_allocate hu) (fun w hw => fillFor_eq_zero s zero hw) _

/-- The published buffer is named by its entry, under the length that the writer recorded (R33). -/
theorem State.TailsOk.makeCurrent (h : s.TailsOk) {bind : Binding} {buf : BufId} {base : Version}
    (hap : s.aperture p a = .writing bind buf base) (hlen : (s.entry bind.entry).length = bind.length) :
    (s.makeCurrent p bind buf).TailsOk := by
  refine h.of_names (mem_makeCurrent s p bind buf) fun b l hb => ?_
  rcases hb with ⟨e, current, length⟩ | ⟨q, d, value⟩
  · rw [entry_makeCurrent] at current length
    split at current <;> rename_i he
    · rw [if_pos he] at length
      obtain rfl : buf = b := Option.some.inj current
      exact .aperture p a (by rw [hap, ← length]; exact congrArg (fun k => some (buf, k)) hlen.symm)
    · rw [if_neg he] at length
      exact .entry e current length
  · rw [aperture_makeCurrent, value_markUpdated] at value
    exact .aperture q d value

/-- With RETAIN a member ends on the head of the free list, filled with a copy of the value just published (R80). -/
theorem endMember_retain (s : State) (p : Port) (a : ApIdx) (bind : Binding) (buf : BufId) (hfree : s.freeList ≠ []) :
    ∃ nb u, Allocated s p a (copyFill s.mem buf (s.entry bind.entry).length) nb u ∧
      s.endMember p true a bind buf = u.setAperture p a (.writing bind nb (s.entry bind.entry).version) := by
  obtain ⟨nb, rest, hlist⟩ := List.exists_cons_of_ne_nil hfree
  refine ⟨nb, _, allocated_of_allocate ((allocate_eq_some s p a _ nb _).mpr ⟨rest, hlist, rfl⟩), ?_⟩
  simp [State.endMember, State.allocate, hlist]

/-- Aperture `a`, where it writes, recorded the length that its entry has. -/
def State.WritesLength (s : State) (p : Port) (a : ApIdx) : Prop :=
  ∀ bind buf v, s.aperture p a = .writing bind buf v → (s.entry bind.entry).length = bind.length

theorem State.BindingsOk.writesLength (h : s.BindingsOk) (p : Port) (a : ApIdx) : s.WritesLength p a :=
  fun bind buf v hap =>
    let ⟨_, _, hlen, _⟩ := h.writers p a bind buf v hap
    hlen

/-- The members `l` of an accepted PUB still to come, in a state in which the store agrees: each writes for a defined entry, and with
RETAIN the free list holds a buffer for each of them (R71, R74). -/
structure State.PublishReady (s : State) (p : Port) (retain : Bool) (l : List ApIdx) : Prop where
  store : s.StoreOk
  nodup : l.Nodup
  writes : ∀ a ∈ l, s.WritesDefined p a
  room : retain = true → l.length ≤ s.freeList.length

theorem State.PublishReady.freeList_ne_nil {l : List ApIdx} {retain : Bool} (h : s.PublishReady p retain (a :: l))
    (hr : retain = true) : s.freeList ≠ [] := fun hnil => by simpa [hnil] using h.room hr

theorem State.PublishReady.publishMember {l : List ApIdx} {retain : Bool} (h : s.PublishReady p retain (a :: l)) :
    (s.publishMember p retain a).PublishReady p retain l := by
  obtain ⟨hnot, hnodup⟩ := List.nodup_cons.mp h.nodup
  refine ⟨h.store.publishMember (h.writes a List.mem_cons_self) h.freeList_ne_nil, hnodup, fun c hc => ?_, fun hr => ?_⟩
  · exact (h.writes c (List.mem_cons_of_mem a hc)).publishMember (a := a) (fun hac => hnot (hac ▸ hc)) retain
  · have := (h.room hr).trans (length_freeList_publishMember s p retain a)
    simpa using this

/-- PUB is refused, or publishes its members one by one from a state that is ready for them (R71, R74). -/
theorem publish_cases (h : s.StoreOk) (p : Port) (mask : Byte) (conditional retain : Bool) (ans : Vector Answer 8) :
    (s.publish p mask conditional retain ans).1 = s ∨
      s.PublishReady p retain (members mask) ∧
        (s.publish p mask conditional retain ans).1 = (members mask).foldl (fun s a => s.publishMember p retain a) s := by
  unfold State.publish
  split
  · exact .inl rfl
  · rename_i hchecks
    split
    · exact .inl rfl
    · rename_i hroom
      refine .inr ⟨⟨h, members_nodup mask, fun a ha => ?_, fun hr => ?_⟩, rfl⟩
      · exact writesDefined_of_pubCheck ((firstFailure_eq_none _ _).mp hchecks a ha)
      · rwa [hr, if_pos rfl, List.getElem?_eq_none_iff] at hroom

theorem State.TailsOk.publishMember (h : s.TailsOk) {l : List ApIdx} {retain : Bool} (hr : s.PublishReady p retain (a :: l))
    (hlength : s.WritesLength p a) : (s.publishMember p retain a).TailsOk := by
  obtain ⟨bind, buf, base, hap, hdef⟩ := hr.writes a List.mem_cons_self
  have hlen := hlength bind buf base hap
  have hcurrent := h.makeCurrent hap hlen
  simp only [State.publishMember, hap]
  cases retain with
  | false => exact hcurrent.setClosed p a
  | true =>
    have hfree : (s.makeCurrent p bind buf).freeList ≠ [] := List.length_pos_iff.mp
      ((List.length_pos_iff.mpr (hr.freeList_ne_nil rfl)).trans_le (length_freeList_makeCurrent s p bind buf))
    obtain ⟨nb, u, hu, heq⟩ := endMember_retain (s.makeCurrent p bind buf) p a bind buf hfree
    have hkept : ((s.makeCurrent p bind buf).entry bind.entry).length = bind.length := by
      rw [entry_makeCurrent, if_pos rfl]; exact hlen
    rw [heq, ← setAperture_setAperture u p a .closed]
    exact (hcurrent.setClosed p a).openWriter (hr.store.publishClosed hap hdef) (hu.setAperture .closed)
      (fun w hw => copyFill_eq_zero _ _ (hkept ▸ hw)) _

/-- A publication leaves the other writers of its port. -/
theorem aperture_publishMember_ne {c : ApIdx} {bind : Binding} {buf : BufId} {base : Version} (hne : a ≠ c) (retain : Bool)
    (hap : s.aperture p c = .writing bind buf base) : (s.publishMember p retain a).aperture p c = .writing bind buf base := by
  unfold State.publishMember
  split
  · rw [aperture_endMember_ne _ _ _ hne, aperture_makeCurrent, hap, markUpdated_writing]
  · exact hap

theorem State.WritesLength.publishMember {c : ApIdx} (h : s.WritesLength p c) (hne : a ≠ c) (hw : s.WritesDefined p c)
    (retain : Bool) : (s.publishMember p retain a).WritesLength p c := by
  obtain ⟨bind, buf, base, hap, -⟩ := hw
  intro bind' buf' base' hap'
  obtain ⟨rfl, rfl, rfl⟩ := Aperture.writing.inj ((aperture_publishMember_ne hne retain hap).symm.trans hap')
  rcases entry_publishMember s p retain a bind.entry with heq | ⟨b, heq⟩ <;> rw [heq] <;> exact h bind buf base hap

theorem State.TailsOk.publish (h : s.TailsOk) (hs : s.StoreOk) (hb : s.BindingsOk) (p : Port) (mask : Byte)
    (conditional retain : Bool) (ans : Vector Answer 8) : (s.publish p mask conditional retain ans).1.TailsOk := by
  rcases publish_cases hs p mask conditional retain ans with heq | ⟨hready, heq⟩ <;> rw [heq]
  · exact h
  · refine (foldl_invariant (I := fun u l => u.TailsOk ∧ u.PublishReady p retain l ∧ ∀ a ∈ l, u.WritesLength p a) ?_ s
      (members mask) ⟨h, hready, fun a _ => hb.writesLength p a⟩).1
    rintro u a l ⟨hu, hr, hl⟩
    obtain ⟨hnot, -⟩ := List.nodup_cons.mp hr.nodup
    refine ⟨hu.publishMember hr (hl a List.mem_cons_self), hr.publishMember, fun c hc => ?_⟩
    have hmem := List.mem_cons_of_mem a hc
    exact (hl c hmem).publishMember (a := a) (fun hac => hnot (hac ▸ hc)) (hr.writes c hmem) retain

end

end Sys2Proof.Machine
end

section
/-! SUPPORT. The rows that write the Buffer Memory, and the word that a data word write may change. -/

namespace Sys2Proof.Machine

section
variable {s t : State}

theorem mem_of_held (h : t.held = s.held) : t.mem = s.mem := (congrArg State.mem h :)

/-- A host write of a data word changes no held field, or writes a word below the length into the buffer that a writer stages
(R64, R65). -/
theorem held_writeData_below_length (s : State) (p : Port) (a : ApIdx) (w : WordIdx) (v : Word) :
    (s.writeData p a w v).held = s.held ∨
      ∃ b l, (s.aperture p a).stages = some b ∧ (s.aperture p a).value = some (b, l) ∧ w.val < l.val ∧
        (s.writeData p a w v).held = { s.held with mem := s.mem.writeWord b w v } := by
  unfold State.writeData
  dsimp only
  split
  · exact .inl rfl
  · split
    · exact .inl rfl
    · split
      · exact .inl rfl
      · exact .inl rfl
      all_goals
        rename_i bind b _ h
        split
        · rename_i hw
          exact .inr ⟨b, bind.length, by rw [h]; rfl, by rw [h]; rfl, hw, rfl⟩
        · exact .inl rfl

@[simp] theorem mem_arbitrate (s : State) : s.arbitrate.mem = s.mem := mem_of_held (held_arbitrate s)

@[simp] theorem mem_complete (s : State) (p : Port) (st : Status) (rw : Results) : (s.complete p st rw).mem = s.mem :=
  mem_of_held (held_complete s p st rw)

@[simp] theorem mem_appendRecord (s : State) (p : Port) (x : Record) : (s.appendRecord p x).mem = s.mem :=
  mem_of_held (held_appendRecord s p x)

@[simp] theorem mem_closeAll (s : State) (p : Port) (l : List ApIdx) : (s.closeAll p l).mem = s.mem := by
  rw [closeAll_frame]

@[simp] theorem mem_endStoreEvent (s u : State) : (s.endStoreEvent u).mem = u.mem := mem_of_held (held_endStoreEvent s u)

theorem ClaimChange.mem (h : ClaimChange s t) : t.mem = s.mem := (congrArg State.mem h.held :)

theorem mem_takeTick (s : State) : s.takeTick.mem = s.mem := by
  rw [takeTick_frame]

/-- Only data word writes, rows that pass the arbiter and DEVICE_RESET write the Buffer Memory. -/
theorem mem_exec_cases {i : Instr} (h : exec i s = .next t) :
    t.mem = s.mem ∨ (∃ p a w v, t = s.writeData p a w v) ∨
      (∃ p r, StoreAnswer s p i r ∧ t = s.finishStore p r) ∨ i = .deviceReset := by
  cases i with
  | dataWordWrite p a w v => cases h; exact .inr (.inl ⟨p, a, w, v, rfl⟩)
  | windowWrite p offset v =>
    cases h
    rcases held_writeWindowWord s p (windowWord offset) v with held | ⟨a, w, hw⟩
    · exact .inl (mem_of_held held)
    · exact .inr (.inl ⟨p, a, w, v, hw⟩)
  | ord p | ref p | owr p | pub p | cls p | ins p | pst p | define p | wdr p | sfr p | spt p =>
    simp only [exec, execOrd, execRef, execOwr, execPub, execCls, execIns, execPst, execDefine, execWdr, execSfr, execSpt] at h
    split at h <;> cases h
    · exact .inr (.inr (.inl ⟨p, _, by constructor, rfl⟩))
    · exact .inl rfl
  | deviceReset => exact .inr (.inr (.inr rfl))
  | tick | staleTransition | emptyExpiry =>
    simp only [exec, execTick, execStaleTransition, execEmptyExpiry] at h
    split at h <;> injection h with h
    · exact .inl (h ▸ mem_takeTick s)
    · exact .inl (by rw [h])
  | entryReport | portReport =>
    left
    simp only [exec, execEntryReport, execPortReport] at h
    split at h <;> cases h
    · exact mem_of_held (foldl_keeps _ State.held _ (by simp) _)
    · rfl
  | commandArrival p v | commandOverrun p v => cases h; exact .inl (mem_of_held (held_writeCommand s p v))
  | latchWord p v | maskWord p v | forceWord p v => cases h; exact .inl (mem_of_held (held_writePort s p _))
  | take p v => cases h; exact .inl (mem_of_held (held_takeRecord s p))
  | millisecondExpiry => cases h; exact .inl (mem_arbitrate _)
  | presenceAsserted p => cases h; exact .inl rfl
  | presenceDeasserted p =>
    cases h
    left
    split
    · exact mem_arbitrate _
    · rfl
  | nop | att | det | rtm | badCommand | rgr | sgr | sub | mrk | cla | rel | commandTranslation | teardownSc | teardownCu
      | teardownNu | peerNotice | claimMove | crossing | overflowClear | departure =>
    simp only [exec, execNop, execAtt, execDet, execRtm, execBadCommand, execRgr, execSgr, execSub, execMrk, execCla, execRel,
      execCommandTranslation, execTeardownSc, execTeardownCu, execTeardownNu, execPeerNotice, execClaimMove, execCrossing,
      execOverflowClear, execDeparture, State.readGrant, State.replaceGrant, State.subscribe, State.refuse] at h
    left
    repeat' split at h
    all_goals
      cases h
      simp [State.attach, State.handPeerNotice, (claimChange_claim _ _ _).mem, (claimChange_release _ _).mem,
        (claimChange_releaseAtTeardown _ _).mem]

end

end Sys2Proof.Machine
end

section
/-! PROOF. The words beyond the length stay 0 at every step (O55). -/

namespace Sys2Proof.Machine

section
variable {s t : State}

theorem tailsOk_of_held {u : State} (held : t.held = u.held) (hu : u.TailsOk) : t.TailsOk :=
  hu.congr (congrArg State.catalog held :) (congrArg State.apertures held :) (mem_of_held held)

/-- After DEVICE_RESET nothing names a buffer (R43, R69). -/
theorem deviceReset_tailsOk (h : execDeviceReset s = .next t) : t.TailsOk := by
  obtain rfl := Host.Outcome.next.inj ((exec_deviceReset s).symm.trans h)
  exact ⟨fun _ _ _ h => by simp [Entry.undefinedWith] at h, fun _ _ _ _ _ h => by simp [Aperture.binding] at h⟩

theorem StoreAnswer.tailsOk {p : Port} {i : Instr} {r : Answered} (hr : StoreAnswer s p i r) (h : s.TailsOk) (hs : s.StoreOk)
    (hb : s.BindingsOk) : r.1.TailsOk := by
  cases hr with
  | ord mask locals ans => exact h.openRead p mask locals ans
  | ref mask => exact h.refresh hb p mask
  | owr l a zero ans => exact h.openWrite hs p l a zero ans
  | pub mask conditional retain ans => exact h.publish hs hb p mask conditional retain ans
  | cls mask => exact h.closeAll p (members mask)
  | ins ans =>
    unfold State.inspect
    split
    · exact h
    · split <;> exact h
  | pst => exact h
  | define gid length producer period grace => exact h.defineEntry gid length producer period grace
  | wdr gid => exact h.withdrawEntry gid
  | sfr gid period grace => exact h.setFreshness gid period grace
  | spt threshold =>
    unfold State.setThreshold
    split
    · exact h
    · exact h.congr rfl rfl rfl

theorem tailsOk_finishStore {p : Port} {r : Answered} (h : r.1.TailsOk) : (s.finishStore p r).TailsOk :=
  tailsOk_of_held (held_finishStore s p r) h

theorem State.TailsOk.writeData (h : s.TailsOk) (hs : s.StoreOk) (p : Port) (a : ApIdx) (w : WordIdx) (v : Word) :
    (s.writeData p a w v).TailsOk := by
  rcases held_writeData_below_length s p a w v with held | ⟨b, l, hst, hval, hw, held⟩
  · exact tailsOk_of_held held h
  · exact tailsOk_of_held (u := { s with mem := s.mem.writeWord b w v }) held (h.writeWord hs hst hval hw v)

theorem exec_tailsOk {i : Instr} (h : s.TailsOk) (hs : s.StoreOk) (hb : s.BindingsOk) (hi : exec i s = .next t) :
    t.TailsOk := by
  rcases mem_exec_cases hi with hmem | ⟨p, a, w, v, rfl⟩ | ⟨p, r, hr, rfl⟩ | rfl
  · cases exec_effect hi with
    | traffic held | subscriptions _ held | grants _ held | time _ _ _ _ _ held | data _ _ _ _ _ _ held =>
      exact h.congr (congrArg State.catalog held :) (congrArg State.apertures held :) hmem
    | claim _ change => exact h.congr (congrArg State.catalog change.held :) (congrArg State.apertures change.held :) hmem
    | tick taken => rw [taken]; exact h.takeTick
    | store p r row taken => rw [taken]; exact tailsOk_finishStore (row.tailsOk h hs hb)
    | teardown p held => exact tailsOk_of_held held (h.closeAll p (List.finRange 8))
    | reset _ taken => exact deviceReset_tailsOk taken
  · exact h.writeData hs p a w v
  · exact tailsOk_finishStore (hr.tailsOk h hs hb)
  · exact deviceReset_tailsOk hi

/-- Settles O55: every row leaves the Buffer Memory or is one of the writes of `mem_exec_cases`, and no row names a buffer under a
length beyond which its words are not 0. -/
theorem everyStepKeepsTheTailsZero : Obligations.EveryStepKeepsTheTailsZero := by
  intro s t hs hb h hstep
  unfold step at hstep
  split at hstep
  · injection hstep with ht
    obtain ⟨_, _, _, _, held⟩ := held_microsecond s
    exact ht ▸ h.congr (congrArg State.catalog held :) (congrArg State.apertures held :) (congrArg State.mem held :)
  · rename_i c rest _
    have hrest : State.BindingsOk { s with pending := rest } := ⟨hb.readers, hb.writers, hb.apart⟩
    exact exec_tailsOk (s := { s with pending := rest }) (h.congr rfl rfl rfl) (hs.congr rfl rfl rfl rfl rfl) hrest hstep

end

end Sys2Proof.Machine
end

section
/-! PROOF. The words of a CURRENT or RETIRED buffer never change (O57). -/

namespace Sys2Proof.Machine

section
variable {s t : State} {b : BufId}

/-! ### Commands that leave the Buffer Memory -/

@[simp] theorem mem_pinEntry (s : State) (p : Port) (a : ApIdx) (bind : Binding) (x : Entry) :
    (s.pinEntry p a bind x).mem = s.mem := by
  unfold State.pinEntry
  split <;> rfl

@[simp] theorem mem_releasePin (s : State) (b : BufId) : (s.releasePin b).mem = s.mem := by
  rw [releasePin_frame]

theorem mem_openRead (s : State) (p : Port) (mask : Byte) (locals : Vector LocalNo 8) (ans : Vector Answer 8) :
    (s.openRead p mask locals ans).1.mem = s.mem := by
  unfold State.openRead
  split
  · rfl
  · refine foldl_keeps s State.mem _ (fun u a => ?_) _
    unfold State.ordMember
    split
    · rfl
    · exact mem_pinEntry _ _ _ _ _

theorem mem_refresh (s : State) (p : Port) (mask : Byte) : (s.refresh p mask).1.mem = s.mem := by
  unfold State.refresh
  split
  · rfl
  · refine foldl_keeps s State.mem _ (fun u a => ?_) _
    unfold State.refMember
    split
    · dsimp only
      split <;> simp
    · rfl

theorem mem_inspect (s : State) (ans : Answer) : (s.inspect ans).1.mem = s.mem := by
  unfold State.inspect
  split
  · rfl
  · split <;> rfl

theorem mem_defineEntry (s : State) (gid : Half) (length producer : Byte) (period grace : Half) :
    (s.defineEntry gid length producer period grace).1.mem = s.mem := by
  unfold State.defineEntry
  split
  · dsimp only
    split <;> rfl
  · rfl

theorem mem_withdrawEntry (s : State) (gid : Half) : (s.withdrawEntry gid).1.mem = s.mem := by
  cases he : entryOf gid with
  | none => simp only [State.withdrawEntry, he]; rfl
  | some e =>
    by_cases hdef : (s.entry e).state = .undefined
    · simp only [State.withdrawEntry, he, if_pos hdef]; rfl
    · rw [withdrawEntry_eq he hdef, withdrawn_frame]

theorem mem_setFreshness (s : State) (gid period grace : Half) : (s.setFreshness gid period grace).1.mem = s.mem := by
  unfold State.setFreshness
  split
  · rfl
  · dsimp only
    split <;> rfl

theorem mem_setThreshold (s : State) (threshold : Half) : (s.setThreshold threshold).1.mem = s.mem := by
  unfold State.setThreshold
  split <;> rfl

/-! ### Fills -/

/-- An allocation writes the words of the free list's head alone (R30). -/
theorem Allocated.readWord {p : Port} {a : ApIdx} {f : WordIdx → Word} {nb : BufId} {u : State} (h : Allocated s p a f nb u)
    (hm : s.mem.wf) (hb : b ≠ nb) (w : WordIdx) : u.mem.readWord b w = s.mem.readWord b w := by
  rw [h.mem, Memory.readWord_fill s.mem hm, if_neg hb]

theorem readWord_openWrite (hs : s.StoreOk) (hb : b ∉ s.freeList) (p : Port) (l : LocalNo) (a : ApIdx) (zero : Bool)
    (ans : Answer) (w : WordIdx) : (s.openWrite p l a zero ans).1.mem.readWord b w = s.mem.readWord b w := by
  unfold State.openWrite
  split
  · rfl
  · rfl
  · dsimp only
    split
    · rfl
    · rename_i hu
      have hallocated := allocated_of_allocate hu
      exact hallocated.readWord hs.mem (fun hbn => hb (by simp [hallocated.freeList, hbn])) w

/-- A publication adds at the tail of the free list at most. -/
theorem freeList_makeCurrent (s : State) (p : Port) (bind : Binding) (buf : BufId) :
    ∃ l, (s.makeCurrent p bind buf).freeList = s.freeList ++ l := by
  have hleave : ∃ l, (s.leaveCurrent bind.entry).freeList = s.freeList ++ l := by
    unfold State.leaveCurrent
    split
    · rename_i old _
      rcases retireBuffer_cases s old with ⟨-, h⟩ | ⟨-, h⟩ <;> rw [h]
      · exact ⟨[], by simp⟩
      · exact ⟨[old], rfl⟩
    · exact ⟨[], by simp⟩
  rw [makeCurrent_eq]
  exact hleave

/-- A member of a PUB leaves the words of a buffer that is not among those next to be allocated, and leaves it outside them (R33,
R80). -/
theorem readWord_publishMember {p : Port} {retain : Bool} {a : ApIdx} {l : List ApIdx}
    (h : s.PublishReady p retain (a :: l)) (hb : retain = true → b ∉ s.freeList.take (l.length + 1)) :
    (∀ w, (s.publishMember p retain a).mem.readWord b w = s.mem.readWord b w) ∧
      (retain = true → b ∉ (s.publishMember p retain a).freeList.take l.length) := by
  obtain ⟨bind, buf, base, hap, -⟩ := h.writes a List.mem_cons_self
  simp only [State.publishMember, hap]
  cases retain with
  | false => exact ⟨fun w => congrArg (·.readWord b w) (mem_makeCurrent s p bind buf), nofun⟩
  | true =>
    obtain ⟨tail, htail⟩ := freeList_makeCurrent s p bind buf
    have hne := h.freeList_ne_nil rfl
    have hroom : l.length + 1 ≤ s.freeList.length := h.room rfl
    obtain ⟨nb, u, hu, heq⟩ := endMember_retain (s.makeCurrent p bind buf) p a bind buf (by simp [htail, hne])
    have hnext : s.freeList.take (l.length + 1) = nb :: u.freeList.take l.length := by
      rw [← List.take_succ_cons, ← hu.freeList, htail, List.take_append_of_le_length hroom]
    have hout := hb rfl
    rw [hnext, List.mem_cons, not_or] at hout
    rw [heq]
    refine ⟨fun w => ?_, fun _ => hout.2⟩
    rw [State.setAperture_mem, hu.readWord (by rw [mem_makeCurrent]; exact h.store.mem) hout.1, mem_makeCurrent]

theorem readWord_publish (hs : s.StoreOk) (hb : b ∉ s.freeList) (p : Port) (mask : Byte) (conditional retain : Bool)
    (ans : Vector Answer 8) (w : WordIdx) :
    (s.publish p mask conditional retain ans).1.mem.readWord b w = s.mem.readWord b w := by
  rcases publish_cases hs p mask conditional retain ans with heq | ⟨hready, heq⟩ <;> rw [heq]
  refine (foldl_invariant (f := fun u a => u.publishMember p retain a)
    (I := fun u l => u.PublishReady p retain l ∧ (retain = true → b ∉ u.freeList.take l.length) ∧
      u.mem.readWord b w = s.mem.readWord b w) ?_ s _ ⟨hready, fun _ hmem => hb (List.mem_of_mem_take hmem), rfl⟩).2.2
  rintro u a l ⟨hu, hout, hword⟩
  obtain ⟨hwords, hout'⟩ := readWord_publishMember hu hout
  exact ⟨hu.publishMember, hout', (hwords w).trans hword⟩

/-! ### Every step keeps the words of a published buffer -/

theorem StoreAnswer.readWord {p : Port} {i : Instr} {r : Answered} (hr : StoreAnswer s p i r) (hs : s.StoreOk)
    (hb : b ∉ s.freeList) (w : WordIdx) : r.1.mem.readWord b w = s.mem.readWord b w := by
  have of_mem {u : State} (h : u.mem = s.mem) : u.mem.readWord b w = s.mem.readWord b w := by rw [h]
  cases hr with
  | ord mask locals ans => exact of_mem (mem_openRead s p mask locals ans)
  | ref mask => exact of_mem (mem_refresh s p mask)
  | owr l a zero ans => exact readWord_openWrite hs hb p l a zero ans w
  | pub mask conditional retain ans => exact readWord_publish hs hb p mask conditional retain ans w
  | cls mask => exact of_mem (mem_closeAll s p _)
  | ins ans => exact of_mem (mem_inspect s ans)
  | pst => rfl
  | define gid length producer period grace => exact of_mem (mem_defineEntry s gid length producer period grace)
  | wdr gid => exact of_mem (mem_withdrawEntry s gid)
  | sfr gid period grace => exact of_mem (mem_setFreshness s gid period grace)
  | spt threshold => exact of_mem (mem_setThreshold s threshold)

/-- A host write of a data word leaves the words of a buffer that no aperture stages (R64). -/
theorem readWord_writeData (hm : s.mem.wf) {p : Port} {a : ApIdx} (hb : (s.aperture p a).stages ≠ some b) (x : WordIdx)
    (v : Word) (w : WordIdx) : (s.writeData p a x v).mem.readWord b w = s.mem.readWord b w := by
  rcases held_writeData s p a x v with held | ⟨c, hst, held⟩
  · rw [mem_of_held held]
  · have hmem : (s.writeData p a x v).mem = s.mem.writeWord c x v := (congrArg State.mem held :)
    rw [hmem, Memory.readWord_writeWord s.mem hm, if_neg]
    rintro ⟨rfl, -⟩
    exact hb hst

theorem exec_readWord {i : Instr} (hs : s.StoreOk) (hi : exec i s = .next t) (hreset : i ≠ .deviceReset)
    (hb : (s.buffer b).state = .retired ∨ ∃ e, (s.buffer b).state = .current e) (w : WordIdx) :
    t.mem.readWord b w = s.mem.readWord b w := by
  rcases mem_exec_cases hi with hmem | ⟨p, a, x, v, rfl⟩ | ⟨p, r, hr, rfl⟩ | hrow
  · rw [hmem]
  · refine readWord_writeData hs.mem (fun hst => ?_) x v w
    rw [← hs.pool.staged] at hst
    simp [hst] at hb
  · have hfree : b ∉ s.freeList := fun hf => by simp [(hs.pool.free b).mp hf] at hb
    rw [mem_of_held (held_finishStore s p r)]
    exact hr.readWord hs hfree w
  · exact absurd hrow hreset

/-- Settles O57: a row writes staged buffers and FREE ones alone, and a PUB allocates from the buffers that were FREE before it. -/
theorem publishedWordsNeverChange : Obligations.PublishedWordsNeverChange := by
  intro s t b w hs hstep hreset hb
  unfold step at hstep
  split at hstep
  · injection hstep with ht
    obtain ⟨_, _, _, _, held⟩ := held_microsecond s
    have hmem : s.microsecond.mem = s.mem := (congrArg State.mem held :)
    rw [← ht, hmem]
  · rename_i c rest hpending
    exact exec_readWord (s := { s with pending := rest }) (hs.congr rfl rfl rfl rfl rfl) hstep
      (fun hc => hreset (by rw [hpending, hc]; rfl)) hb w

end

end Sys2Proof.Machine
end

section
/-! PROOF. The pool commands SPT and PST (O35), the end of a store event and the completion of a command (O7), and the notices that a
Port Interface takes (O21). -/

namespace Sys2Proof.Machine

/-! ### The counts of the pool -/

section
variable {s : State} {p : Port} {c : Pending}

theorem exec_pst (h : s.storeTurn p c) (hreq : c.req = .pst) :
    exec (.pst p) s = .next (s.finishStore p (s, .ok, s.poolResults)) := by
  obtain ⟨req, stage, locals, answers⟩ := c
  subst hreq
  simp only [exec, execPst, (storeCommand_eq_some s p _).mpr h]

theorem countBuffers_eq_countP_finRange (s : State) (f : BufState → Bool) :
    s.countBuffers f = (List.finRange 384).countP fun b => f (s.buffer b).state := by
  rw [State.countBuffers, toList_eq_map_finRange, List.countP_map]
  rfl

/-- The free list holds the FREE buffers, each once (R28). -/
theorem State.PoolOk.length_freeList (h : s.PoolOk) : s.freeList.length = s.countBuffers (· == .free) := by
  have hperm : s.freeList.Perm ((List.finRange 384).filter fun b => (s.buffer b).state == .free) :=
    (List.perm_ext_iff_of_nodup h.freeNodup ((List.nodup_finRange 384).filter _)).mpr fun b => by simp [h.free]
  rw [countBuffers_eq_countP_finRange, List.countP_eq_length_filter, hperm.length_eq]

/-- Every buffer is FREE, STAGED, CURRENT or RETIRED, and only one of them (R25). -/
theorem countBuffers_states (s : State) :
    s.countBuffers (· == .free) + s.countBuffers BufState.isStaged + s.countBuffers BufState.isCurrent +
      s.countBuffers (· == .retired) = 384 := by
  have hone : ∀ k : BufState, (if k == .free then 1 else 0) + (if k.isStaged then 1 else 0) + (if k.isCurrent then 1 else 0) +
      (if k == .retired then 1 else 0) = 1 := fun k => by cases k <;> rfl
  have hlist : ∀ l : List BufRec, l.countP (·.state == .free) + l.countP (·.state.isStaged) + l.countP (·.state.isCurrent) +
      l.countP (·.state == .retired) = l.length := by
    intro l
    induction l with
    | nil => rfl
    | cons r l ih =>
      simp only [List.countP_cons, List.length_cons]
      have := hone r.state
      omega
  exact (hlist s.buffers.toList).trans (by simp)

theorem thresholdOf_eq_some {t : Half} {b : BufId} (h : t.toNat = b.val) : thresholdOf t = some b := by
  simp [thresholdOf, h]

/-- The head of the free list as a number, FFFFh where the list is empty (Table 10-5, R170). -/
theorem headWord_eq (l : List BufId) :
    (0#16 ++ bufferCode l.head? : Word) = (match l with | [] => 0xFFFF | b :: _ => BitVec.ofNat 32 b.val : Word) := by
  apply BitVec.eq_of_toNat_eq
  rw [zero_append_eq_setWidth, BitVec.toNat_setWidth, toNat_bufferCode]
  cases l with
  | nil => rfl
  | cons b l => rfl

end

/-- Settles O35: SPT by `thresholdOf`, PST by the counts over the buffer records. -/
theorem poolCommandsSetAndReport : Obligations.PoolCommandsSetAndReport := by
  intro s p c hturn
  refine ⟨fun t b hreq ht => ?_, fun hreq => ⟨_, _, _, rfl, rfl, rfl, fun hpool => ?_, ?_⟩⟩
  · rw [exec_spt hturn hreq, State.setThreshold, thresholdOf_eq_some ht]
    exact congrArg _ (finishStore_of_length_le (by exact le_rfl) .ok noResults)
  · have hsum := countBuffers_states s
    rw [← hpool.length_freeList] at hsum
    simp only [countBuffers_eq_countP_finRange] at hsum
    exact hsum
  · rw [exec_pst hturn hreq, finishStore_of_length_le le_rfl, State.poolResults, resultWords_eq, headWord_eq]
    simp only [countBuffers_eq_countP_finRange]
    rfl

/-! ### The end of a store event, and a completion -/

/-- The Port Interfaces after a completion are the arbiter's to look at (R157, R160). -/
theorem complete_eq_arbitrate (s : State) (p : Port) (st : Status) (rw : Results) :
    s.complete p st rw = State.arbitrate { s with ports := (s.complete p st rw).ports } := by
  have hports : (s.complete p st rw).ports = (s.updatePort p fun pi =>
      if pi.session = .teardown .await then pi.discardCompletion else pi.complete st rw).ports := by
    unfold State.complete
    rw [arbitrate_frame]
  rw [hports]
  rfl

/-- Settles O7: the end of the event by `port_endStoreEvent`, the completion by `port_complete`. -/
theorem storeEventEndsAndCommandCompletes : Obligations.StoreEventEndsAndCommandCompletes := by
  refine ⟨fun s u => ⟨endStoreEvent_frame s u, port_endStoreEvent s u⟩, fun s p st rw =>
    ⟨complete_eq_arbitrate s p st rw, fun q hne => ?_, fun hsession => ?_, fun hsession => ?_⟩⟩
  · rw [port_complete, if_neg hne.symm]
  · rw [port_complete, if_pos rfl, if_neg hsession]; rfl
  · rw [port_complete, if_pos rfl, if_pos hsession]; rfl

/-! ### Notices -/

/-- A notice taken touches the latch at most (R39, R143, R151). -/
theorem noticed_eq (pi : PortIf) (b : BitVec 7) :
    pi.noticed b = { pi with latch := if pi.session = .attached then pi.latch ||| b else pi.latch } := by
  unfold PortIf.noticed
  split <;> rfl

/-- Settles O21: each row takes the oldest notice where it is of its kind. -/
theorem noticesLatchOnlyInAttached : Obligations.NoticesLatchOnlyInAttached := by
  intro s p
  refine ⟨fun q rest hn => ⟨?_, ?_⟩, fun rest hn => ⟨?_, ?_⟩, fun n hn => ?_⟩
  · simp only [exec, execClaimMove, hn]
  · simp only [exec, execPeerNotice, hn, State.updatePort, noticed_eq]
  · simp only [exec, execPeerNotice, hn]
  · simp only [exec, execClaimMove, hn, State.updatePort, noticed_eq]
  · simp only [exec, execCrossing, hn, State.updatePort, noticed_eq]
    rfl

end Sys2Proof.Machine
end

section
/-! SUPPORT. The apertures' agreement with the catalog (R44, R47 to R50, R58, R73), one aperture record at a time, and what a change
of an entry makes of it. Given the pool's agreement it is `State.BindingsOk`, but it rests on the entries and the apertures
alone. -/

namespace Sys2Proof.Machine

/-! ### One aperture and the catalog -/

/-- No entry has `b` as its current buffer: one that a reader pins is then RETIRED (`retired_iff_leftBy`). -/
def LeftBy (cat : EntryId → Entry) (b : BufId) : Prop := ∀ e, (cat e).current ≠ some b

/-- No buffer is the current one of two entries. -/
def CurrentsApart (cat : EntryId → Entry) : Prop :=
  ∀ e e' b, (cat e).current = some b → (cat e').current = some b → e = e'

/-- `State.ReaderOk` with RETIRED read off the catalog. -/
def ReaderFits (cat : EntryId → Entry) (bind : Binding) (buf : BufId) (v : Version) (t : Time) (f : ReadFlags) : Prop :=
  if f.gone then LeftBy cat buf
  else
    ((cat bind.entry).state = .current ∨ (cat bind.entry).state = .stale) ∧
      (cat bind.entry).generation = bind.generation ∧ (cat bind.entry).length = bind.length ∧
      (f.updated = true ↔ (cat bind.entry).current ≠ some buf) ∧ (f.updated = true → LeftBy cat buf) ∧
      (f.updated = false → v = (cat bind.entry).version ∧ (cat bind.entry).publishTime = some t ∧
        ((cat bind.entry).state = .stale → f.stale = true))

/-- `State.WriterOk`, of a catalog. -/
def WriterFits (cat : EntryId → Entry) (p : Port) (bind : Binding) : Prop :=
  (cat bind.entry).state ≠ .undefined ∧ (cat bind.entry).generation = bind.generation ∧
    (cat bind.entry).length = bind.length ∧
    ((cat bind.entry).producer = some (.port p) ∨ (cat bind.entry).producer = some .shared)

/-- An aperture of port `p` agrees with the entry it was opened on. -/
def Aperture.Fits (cat : EntryId → Entry) (p : Port) : Aperture → Prop
  | .closed => True
  | .reading bind buf v t f => ReaderFits cat bind buf v t f
  | .writing bind _ _ => WriterFits cat p bind
  | .orphaned _ _ _ => True

/-- Every aperture agrees with its entry, and no port has two writers for one entry id. -/
structure State.Fitting (s : State) : Prop where
  fits : ∀ p a, (s.aperture p a).Fits s.entry p
  apart : ∀ p a a' e, (s.aperture p a).writesTo e = true → (s.aperture p a').writesTo e = true → a = a'

theorem writesTo_iff (x : Aperture) (e : EntryId) :
    x.writesTo e = true ↔ x.stages.isSome ∧ x.binding.map Binding.entry = some e := by
  cases x <;> simp [Aperture.writesTo, Aperture.stages, Aperture.binding]

section
variable {s t : State}

theorem State.PoolOk.currentsApart (h : s.PoolOk) : CurrentsApart s.entry := fun e e' b he he' => by
  rw [← h.current] at he he'
  exact BufState.current.inj (he.symm.trans he')

/-- A buffer that a reader pins is its entry's current one or RETIRED (R25, R27). -/
theorem retired_iff_leftBy (h : s.PoolOk) {p : Port} {a : ApIdx} {b : BufId} (hp : (s.aperture p a).pins = some b) :
    (s.buffer b).state = .retired ↔ LeftBy s.entry b := by
  have hheld : (s.buffer b).holds ≠ 0 := fun h0 => h.not_pinned h0 p a hp
  constructor
  · intro hret e hcur
    rw [← h.current, hret] at hcur
    cases hcur
  · intro hleft
    cases hstate : (s.buffer b).state with
    | free => exact absurd (h.unheld b (.inl hstate)) hheld
    | staged q d => exact absurd (h.unheld b (.inr ⟨q, d, hstate⟩)) hheld
    | current e => exact absurd ((h.current b e).mp hstate) (hleft e)
    | retired => rfl

theorem readerOk_iff (h : s.PoolOk) {p : Port} {a : ApIdx} {bind : Binding} {buf : BufId} {v : Version} {t : Time}
    {f : ReadFlags} (hap : s.aperture p a = .reading bind buf v t f) :
    s.ReaderOk bind buf v t f ↔ ReaderFits s.entry bind buf v t f := by
  simp only [State.ReaderOk, ReaderFits, retired_iff_leftBy h (by rw [hap]; rfl)]

/-- Where the pool agrees, the bindings agree exactly when every aperture agrees with the catalog. -/
theorem bindingsOk_iff (h : s.PoolOk) : s.BindingsOk ↔ s.Fitting := by
  constructor
  · intro hb
    refine ⟨fun p a => ?_, fun p a a' e ha ha' => ?_⟩
    · cases hap : s.aperture p a with
      | closed | orphaned => trivial
      | reading bind buf v t f => exact (readerOk_iff h hap).mp (hb.readers p a bind buf v t f hap)
      | writing bind buf v => exact hb.writers p a bind buf v hap
    · obtain ⟨hst, hbind⟩ := (writesTo_iff _ e).mp ha
      obtain ⟨hst', hbind'⟩ := (writesTo_iff _ e).mp ha'
      exact hb.apart p a a' e hst hst' hbind hbind'
  · intro hf
    refine ⟨fun p a bind buf v t f hap => ?_, fun p a bind buf v hap => ?_, fun p a a' e hst hst' hbind hbind' => ?_⟩
    · have := hf.fits p a
      rw [hap] at this
      exact (readerOk_iff h hap).mpr this
    · have := hf.fits p a
      rw [hap] at this
      exact this
    · exact hf.apart p a a' e ((writesTo_iff _ e).mpr ⟨hst, hbind⟩) ((writesTo_iff _ e).mpr ⟨hst', hbind'⟩)

/-! ### Apertures replaced -/

theorem State.Fitting.congr (h : s.Fitting) (hentry : t.entry = s.entry) (hap : t.aperture = s.aperture) : t.Fitting :=
  ⟨by rw [hentry, hap]; exact h.fits, by rw [hap]; exact h.apart⟩

/-- A change of every aperture that keeps the writers' entries, over a change of the catalog. -/
theorem State.Fitting.map (h : s.Fitting) {f : Aperture → Aperture} (hap : ∀ p a, t.aperture p a = f (s.aperture p a))
    (hwrites : ∀ x e, (f x).writesTo e = true → x.writesTo e = true)
    (hfits : ∀ p a, (s.aperture p a).Fits s.entry p → (f (s.aperture p a)).Fits t.entry p) : t.Fitting where
  fits p a := by rw [hap]; exact hfits p a (h.fits p a)
  apart p a a' e := by
    rw [hap, hap]
    exact fun ha ha' => h.apart p a a' e (hwrites _ e ha) (hwrites _ e ha')

/-- Closing apertures keeps the agreement of the others. -/
theorem State.Fitting.closing (h : s.Fitting) (hentry : t.entry = s.entry)
    (hap : ∀ p a, t.aperture p a = s.aperture p a ∨ t.aperture p a = .closed) : t.Fitting where
  fits p a := by
    rcases hap p a with heq | heq <;> rw [heq]
    · rw [hentry]; exact h.fits p a
    · trivial
  apart p a a' e ha ha' := by
    rcases hap p a with heq | heq <;> rw [heq] at ha
    · rcases hap p a' with heq' | heq' <;> rw [heq'] at ha'
      · exact h.apart p a a' e ha ha'
      · cases ha'
    · cases ha

/-- One aperture replaced by a record that agrees, on an entry for which its port has no other writer. -/
theorem State.Fitting.setAperture (h : s.Fitting) {p : Port} {a : ApIdx} {x : Aperture} (hx : x.Fits s.entry p)
    (halone : ∀ e, x.writesTo e = true → ∀ c, (s.aperture p c).writesTo e = true → c = a) :
    (s.setAperture p a x).Fitting where
  fits q c := by
    rw [State.aperture_setAperture]
    split
    · rename_i hq; rw [← hq.1]; exact hx
    · exact h.fits q c
  apart q c c' e := by
    simp only [State.aperture_setAperture]
    split <;> rename_i hc <;> split <;> rename_i hc'
    · exact fun _ _ => hc.2.symm.trans hc'.2
    · exact fun hw hw' => (hc.2 ▸ halone e hw c' (hc.1 ▸ hw')).symm
    · exact fun hw hw' => hc'.2 ▸ halone e hw' c (hc'.1 ▸ hw)
    · exact h.apart q c c' e

/-! ### Entries replaced -/

theorem entry_setEntry_eq_update (s : State) (e : EntryId) (x : Entry) :
    (s.setEntry e x).entry = Function.update s.entry e x := by
  funext e'
  rw [State.entry_setEntry, Function.update_apply]
  simp only [eq_comm]

end

section
variable {cat : EntryId → Entry} {e : EntryId} {y : Entry} {bind : Binding} {buf : BufId} {v : Version} {t : Time}
  {f : ReadFlags}

theorem LeftBy.update (h : LeftBy cat buf) (hy : y.current ≠ some buf) : LeftBy (Function.update cat e y) buf := by
  intro e'
  rw [Function.update_apply]
  split
  · exact hy
  · exact h e'

/-- A buffer leaves the one entry of which it was the current one. -/
theorem CurrentsApart.leftBy_update (h : CurrentsApart cat) (hcur : (cat e).current = some buf) (hy : y.current ≠ some buf) :
    LeftBy (Function.update cat e y) buf := by
  intro e'
  rw [Function.update_apply]
  split <;> rename_i he
  · exact hy
  · exact fun hcur' => he (h e' e buf hcur' hcur)

/-- An entry's new current buffer is no matter to a GONE reader, or to a reader of another entry, that does not pin it. -/
theorem ReaderFits.update_other (h : ReaderFits cat bind buf v t f) (hother : f.gone = true ∨ bind.entry ≠ e)
    (hy : y.current ≠ some buf) : ReaderFits (Function.update cat e y) bind buf v t f := by
  unfold ReaderFits at h ⊢
  split at h <;> rename_i hgone
  · rw [if_pos hgone]; exact h.update hy
  · obtain ⟨hstate, hgen, hlen, hupd, hleft, hpinned⟩ := h
    rw [if_neg hgone, Function.update_of_ne (hother.resolve_left hgone)]
    exact ⟨hstate, hgen, hlen, hupd, fun hu => (hleft hu).update hy, hpinned⟩

theorem WriterFits.update_other {p : Port} (h : WriterFits cat p bind) (hother : bind.entry ≠ e) :
    WriterFits (Function.update cat e y) p bind := by
  unfold WriterFits at h ⊢
  rw [Function.update_of_ne hother]
  exact h

/-- A reader whose buffer leaves its entry: it pins a buffer that no entry has. -/
theorem ReaderFits.leftBy_update (h : ReaderFits cat bind buf v t f) (hcat : CurrentsApart cat) (hbind : bind.entry = e)
    (hlive : f.gone = false) (hy : y.current ≠ some buf) : LeftBy (Function.update cat e y) buf := by
  unfold ReaderFits at h
  rw [hlive, if_neg Bool.false_ne_true, hbind] at h
  obtain ⟨-, -, -, hupd, hleft, -⟩ := h
  cases hu : f.updated with
  | true => exact (hleft hu).update hy
  | false =>
    have hcur : (cat e).current = some buf := not_not.mp fun hne => by simp [hupd.mpr hne] at hu
    exact hcat.leftBy_update hcur hy

/-- The fields of an entry that the apertures do not show are blanked out. -/
def Entry.shown (x : Entry) : Entry := { x with publisher := none, period := 0, grace := 0, countdown := 0, staleCount := 0 }

/-- An aperture's agreement rests on the fields shown. -/
theorem fits_congr {cat' : EntryId → Entry} (h : ∀ e, (cat' e).shown = (cat e).shown) (p : Port) (x : Aperture) :
    x.Fits cat' p ↔ x.Fits cat p := by
  have hshown : ∀ c : EntryId → Entry, x.Fits c p = x.Fits (fun e => (c e).shown) p := fun c => by cases x <;> rfl
  rw [hshown cat', hshown cat, funext h]

theorem shown_update (hy : y.shown = (cat e).shown) (e' : EntryId) :
    (Function.update cat e y e').shown = (cat e').shown := by
  rw [Function.update_apply]
  split
  · rename_i he; rw [hy, he]
  · rfl

/-! ### What the catalog's events do to an aperture -/

/-- DEF: nothing open agrees with an UNDEFINED entry, and the new definition has no buffer (R14). -/
theorem Aperture.Fits.define {p : Port} {x : Aperture} (h : x.Fits cat p) (hundef : (cat e).state = .undefined)
    (hy : y.current = none) : x.Fits (Function.update cat e y) p := by
  cases x with
  | closed | orphaned => trivial
  | reading bind buf v t f =>
    refine ReaderFits.update_other h ?_ (by rw [hy]; nofun)
    by_contra hnot
    obtain ⟨hgone, hbind⟩ := not_or.mp hnot
    change ReaderFits cat bind buf v t f at h
    rw [ReaderFits, if_neg hgone, not_not.mp hbind, hundef] at h
    simp at h
  | writing bind buf v => exact WriterFits.update_other h fun hbind => h.1 (hbind ▸ hundef)

/-- WDR: every reader of the entry becomes GONE and pins a buffer that has left it; every writer is orphaned (R18). -/
theorem Aperture.Fits.withdraw {p : Port} {x : Aperture} (h : x.Fits cat p) (hcat : CurrentsApart cat) :
    (x.withdraw e (cat e).generation).Fits (Function.update cat e (Entry.undefinedWith (cat e).generation)) p := by
  have hnone : ∀ b, (Entry.undefinedWith (cat e).generation).current ≠ some b := nofun
  cases x with
  | closed | orphaned => trivial
  | reading bind buf v t f =>
    change ReaderFits cat bind buf v t f at h
    simp only [Aperture.withdraw]
    cases hgone : f.gone with
    | true =>
      have hleft := h
      rw [ReaderFits, hgone, if_pos rfl] at hleft
      split
      · exact hleft.update (hnone buf)
      · exact h.update_other (.inl hgone) (hnone buf)
    | false =>
      by_cases hbind : bind.entry = e
      · have hleft := h.leftBy_update hcat hbind hgone (hnone buf)
        rw [ReaderFits, hgone, if_neg Bool.false_ne_true, hbind] at h
        obtain ⟨-, hgen, -⟩ := h
        rw [if_pos (by simp [Binding.boundTo, hbind, hgen])]
        exact hleft
      · rw [if_neg (by simp [Binding.boundTo, hbind])]
        exact h.update_other (.inr hbind) (hnone buf)
  | writing bind buf v =>
    simp only [Aperture.withdraw]
    split
    · trivial
    · rename_i hbound
      exact WriterFits.update_other h fun hbind => hbound (by
        obtain ⟨-, hgen, -⟩ := h
        simp [Binding.boundTo, ← hbind, hgen])

/-- A publication: every reader of the entry shows UPDATED and pins a buffer that has left it; the writers stay (R47, R76, R77). -/
theorem Aperture.Fits.publish {p : Port} {x : Aperture} (h : x.Fits cat p) (hcat : CurrentsApart cat) {nb : BufId}
    (hpins : x.pins ≠ some nb) (q : Port) (now : Time) :
    (x.markUpdated e (cat e).generation).Fits (Function.update cat e ((cat e).published q nb now)) p := by
  cases x with
  | closed | orphaned => trivial
  | reading bind buf v t f =>
    have hne : ((cat e).published q nb now).current ≠ some buf := fun heq => hpins heq.symm
    change ReaderFits cat bind buf v t f at h
    simp only [Aperture.markUpdated]
    split <;> rename_i hbound
    · simp only [Binding.boundTo, Bool.and_eq_true, decide_eq_true_eq, Bool.not_eq_eq_eq_not, Bool.not_true] at hbound
      obtain ⟨⟨hbind, -⟩, hlive⟩ := hbound
      have hleft := h.leftBy_update hcat hbind hlive hne
      change ReaderFits _ _ _ _ _ _
      rw [ReaderFits, hlive, if_neg Bool.false_ne_true, hbind] at h ⊢
      obtain ⟨-, hgen, hlen, -⟩ := h
      rw [Function.update_self]
      exact ⟨.inl rfl, hgen, hlen, by simpa using hne, fun _ => hleft, nofun⟩
    · refine h.update_other ?_ hne
      by_contra hnot
      obtain ⟨hlive, hbind⟩ := not_or.mp hnot
      rw [ReaderFits, if_neg hlive] at h
      obtain ⟨-, hgen, -⟩ := h
      exact hbound (by simp [Binding.boundTo, not_not.mp hbind ▸ hgen, not_not.mp hbind, Bool.eq_false_iff.mpr hlive])
  | writing bind buf v =>
    change WriterFits cat p bind at h
    change WriterFits _ p bind
    by_cases hbind : bind.entry = e
    · rw [WriterFits, hbind] at h ⊢
      obtain ⟨-, hrest⟩ := h
      rw [Function.update_self]
      exact ⟨nofun, hrest⟩
    · exact h.update_other hbind

/-- The STALE flag set on a reader keeps its agreement. -/
theorem ReaderFits.setStale (h : ReaderFits cat bind buf v t f) : ReaderFits cat bind buf v t { f with stale := true } := by
  unfold ReaderFits at h ⊢
  split at h <;> rename_i hgone
  · rw [if_pos hgone]; exact h
  · obtain ⟨hstate, hgen, hlen, hupd, hleft, hpinned⟩ := h
    rw [if_neg hgone]
    refine ⟨hstate, hgen, hlen, hupd, hleft, fun hu => ?_⟩
    obtain ⟨hversion, htime, -⟩ := hpinned hu
    exact ⟨hversion, htime, fun _ => rfl⟩

/-- An entry made STALE agrees with a reader that shows STALE where it pins the entry's current buffer (R48). -/
theorem ReaderFits.update_stale (h : ReaderFits cat bind buf v t f)
    (hstale : (cat e).current = some buf → f.stale = true) :
    ReaderFits (Function.update cat e { cat e with state := .stale }) bind buf v t f := by
  have hupdate : LeftBy cat buf → LeftBy (Function.update cat e { cat e with state := .stale }) buf :=
    fun hleft => hleft.update (hleft e)
  by_cases hother : f.gone = true ∨ bind.entry ≠ e
  · unfold ReaderFits at h ⊢
    split at h <;> rename_i hgone
    · rw [if_pos hgone]; exact hupdate h
    · obtain ⟨hstate, hgen, hlen, hupd, hleft, hpinned⟩ := h
      rw [if_neg hgone, Function.update_of_ne (hother.resolve_left hgone)]
      exact ⟨hstate, hgen, hlen, hupd, fun hu => hupdate (hleft hu), hpinned⟩
  · obtain ⟨hgone, hbind⟩ := not_or.mp hother
    rw [not_not] at hbind
    rw [ReaderFits, if_neg hgone, hbind] at h ⊢
    obtain ⟨-, hgen, hlen, hupd, hleft, hpinned⟩ := h
    rw [Function.update_self]
    refine ⟨.inr rfl, hgen, hlen, hupd, fun hu => hupdate (hleft hu), fun hu => ?_⟩
    obtain ⟨hversion, htime, -⟩ := hpinned hu
    exact ⟨hversion, htime, fun _ => hstale (not_not.mp fun hne => by simp [hupd.mpr hne] at hu)⟩

/-- The expiry of a CURRENT entry: the readers of its current buffer show STALE (R48, R97). -/
theorem Aperture.Fits.expire {p : Port} {x : Aperture} (h : x.Fits cat p)
    (hy : y.shown = Entry.shown { cat e with state := .stale }) :
    (x.markStale (cat e).current).Fits (Function.update cat e y) p := by
  have hshown : ∀ e', (Function.update cat e y e').shown = (Function.update cat e { cat e with state := .stale } e').shown := by
    intro e'
    rw [Function.update_apply, Function.update_apply]
    split
    · exact hy
    · rfl
  rw [fits_congr hshown]
  cases x with
  | closed | orphaned => trivial
  | reading bind buf v t f =>
    simp only [Aperture.markStale]
    split <;> rename_i hcur
    · exact (ReaderFits.setStale h).update_stale fun _ => rfl
    · exact ReaderFits.update_stale h fun hcur' => absurd hcur' hcur
  | writing bind buf v =>
    change WriterFits cat p bind at h
    change WriterFits _ p bind
    by_cases hbind : bind.entry = e
    · rw [WriterFits, hbind] at h ⊢
      obtain ⟨-, hrest⟩ := h
      rw [Function.update_self]
      exact ⟨nofun, hrest⟩
    · exact h.update_other hbind

end

end Sys2Proof.Machine
end

section
/-! PROOF. The apertures stay in agreement with the entries they were opened on, at every step (O54). -/

namespace Sys2Proof.Machine

section
variable {s t : State} {p : Port} {a : ApIdx}

theorem entry_eq_of_besidesPool (h : t.besidesPool = s.besidesPool) : t.entry = s.entry := funext (entry_of_besidesPool h)

/-! ### ORD and REF -/

/-- A CURRENT or STALE entry has a publish time (R2). -/
theorem Entry.Ok.publishTime_isSome {x : Entry} (h : x.Ok) (hx : x.state = .current ∨ x.state = .stale) :
    x.publishTime.isSome := by
  rcases hx with hx | hx <;>
    · rw [Entry.Ok, hx] at h
      obtain ⟨-, -, -, htime, -⟩ := h
      exact htime

/-- The record of a reader that newly pins its entry's current buffer agrees (R50, R53, R56). -/
theorem readerFits_pinned {cat : EntryId → Entry} {bind : Binding} {b : BufId} (hok : (cat bind.entry).Ok)
    (hstate : (cat bind.entry).state = .current ∨ (cat bind.entry).state = .stale)
    (hgen : (cat bind.entry).generation = bind.generation) (hlen : (cat bind.entry).length = bind.length)
    (hcur : (cat bind.entry).current = some b) :
    ReaderFits cat bind b (cat bind.entry).version ((cat bind.entry).publishTime.getD 0)
      { updated := false, stale := decide ((cat bind.entry).state = .stale), gone := false } := by
  obtain ⟨time, htime⟩ := Option.isSome_iff_exists.mp (hok.publishTime_isSome hstate)
  rw [ReaderFits, if_neg Bool.false_ne_true]
  exact ⟨hstate, hgen, hlen, by simp [hcur], nofun, fun _ => ⟨rfl, by simp [htime], decide_eq_true⟩⟩

theorem State.Fitting.pinEntry (h : s.Fitting) {bind : Binding} (hok : (s.entry bind.entry).Ok)
    (hstate : (s.entry bind.entry).state = .current ∨ (s.entry bind.entry).state = .stale)
    (hgen : (s.entry bind.entry).generation = bind.generation) (hlen : (s.entry bind.entry).length = bind.length) :
    (s.pinEntry p a bind (s.entry bind.entry)).Fitting := by
  unfold State.pinEntry
  split
  · exact h
  · rename_i b hcur
    have hpin : (s.pin b).Fitting := h.congr rfl rfl
    exact hpin.setAperture (readerFits_pinned hok hstate hgen hlen hcur) nofun

/-- A member that passes ORD's checks names an entry that has a value (R52). -/
theorem value_of_ordCheck {ans : Vector Answer 8} (h : s.ordCheck p ans a = none) :
    ∃ e r, ans[a] = some (e, r) ∧ ((s.entry e).state = .current ∨ (s.entry e).state = .stale) := by
  unfold State.ordCheck at h
  split at h
  · cases h
  · split at h
    · cases h
    · rename_i e r hans
      refine ⟨e, r, hans, ?_⟩
      split at h
      · cases h
      · split at h <;> rename_i hstate
        · cases h
        · cases h
        · exact .inl hstate
        · exact .inr hstate

theorem State.Fitting.openRead (h : s.Fitting) (hcat : s.CatalogOk) (p : Port) (mask : Byte) (locals : Vector LocalNo 8)
    (ans : Vector Answer 8) : (s.openRead p mask locals ans).1.Fitting := by
  unfold State.openRead
  split
  · exact h
  · rename_i hchecks
    refine foldl_members (P := State.Fitting) (ready := fun u a => u.entry = s.entry ∧ s.ordCheck p ans a = none)
      (fun u a hu ⟨hentry, hcheck⟩ => ?_) (fun u a c _ ⟨hentry, hcheck⟩ _ => ⟨?_, hcheck⟩) s (members mask)
      (members_nodup mask) h fun a ha => ⟨rfl, (firstFailure_eq_none _ _).mp hchecks a ha⟩
    · obtain ⟨e, r, hans, hstate⟩ := value_of_ordCheck hcheck
      rw [← hentry] at hstate
      simp only [State.ordMember, hans]
      exact State.Fitting.pinEntry hu (hentry ▸ hcat e) hstate rfl rfl
    · rw [entry_eq_of_besidesPool (besidesPool_ordMember u p locals ans a), hentry]

/-- A member that passes REF's checks reads a live definition that has a value (R55). -/
theorem live_of_refCheck (h : s.refCheck p a = none) :
    ∃ bind buf v t f, s.aperture p a = .reading bind buf v t f ∧ f.gone = false ∧
      (s.entry bind.entry).state ≠ .undefined ∧ (s.entry bind.entry).state ≠ .empty := by
  unfold State.refCheck at h
  split at h
  · rename_i bind buf v t f hap
    dsimp only at h
    split_ifs at h with hgone hempty
    obtain ⟨hlive, hdef⟩ := not_or.mp hgone
    exact ⟨bind, buf, v, t, f, hap, Bool.eq_false_iff.mpr hlive, fun hu => hdef (.inl hu), hempty⟩
  · cases h

theorem State.Fitting.refMember (h : s.Fitting) (hcat : s.CatalogOk) (hcheck : s.refCheck p a = none) :
    (s.refMember p a).Fitting := by
  obtain ⟨bind, buf, v, t, f, hap, hlive, -⟩ := live_of_refCheck hcheck
  have hfits : ReaderFits s.entry bind buf v t f := by
    have := h.fits p a
    rwa [hap] at this
  rw [ReaderFits, hlive, if_neg Bool.false_ne_true] at hfits
  obtain ⟨hstate, hgen, hlen, hupd, -, hpinned⟩ := hfits
  simp only [State.refMember, hap]
  split <;> rename_i hcur
  · have hu : f.updated = false := Bool.eq_false_iff.mpr fun hu => hupd.mp hu hcur
    obtain ⟨hversion, htime, -⟩ := hpinned hu
    refine h.setAperture ?_ nofun
    change ReaderFits _ _ _ _ _ _
    rw [ReaderFits, if_neg Bool.false_ne_true]
    exact ⟨hstate, hgen, hlen, by simp [hcur], nofun, fun _ => ⟨hversion, htime, decide_eq_true⟩⟩
  · have hentry := entry_eq_of_besidesPool (besidesPool_releasePin s buf)
    have hrel : (s.releasePin buf).Fitting := h.congr hentry (funext₂ (aperture_releasePin s buf))
    rw [← hentry] at hstate hgen hlen ⊢
    exact hrel.pinEntry (hentry ▸ hcat bind.entry) hstate hgen hlen

/-- The check of a member rests on its aperture and on the catalog. -/
theorem refCheck_refMember_ne (s : State) (p : Port) {a c : ApIdx} (hne : a ≠ c) :
    (s.refMember p a).refCheck p c = s.refCheck p c := by
  simp only [State.refCheck, aperture_refMember_ne s p hne, entry_of_besidesPool (besidesPool_refMember s p a)]

theorem State.Fitting.refresh (h : s.Fitting) (hcat : s.CatalogOk) (p : Port) (mask : Byte) :
    (s.refresh p mask).1.Fitting := by
  unfold State.refresh
  split
  · exact h
  · rename_i hchecks
    refine (foldl_members (P := fun u => u.Fitting ∧ u.CatalogOk) (ready := fun u a => u.refCheck p a = none)
      (fun u a ⟨hu, hc⟩ hcheck => ⟨hu.refMember hc hcheck, fun e => ?_⟩)
      (fun u a c _ hc hne => (refCheck_refMember_ne u p hne).trans hc) s (members mask) (members_nodup mask)
      ⟨h, hcat⟩ fun a ha => (firstFailure_eq_none _ _).mp hchecks a ha).1
    rw [entry_of_besidesPool (besidesPool_refMember u p a)]
    exact hc e

/-! ### CLS and OWR -/

theorem State.Fitting.closeAll (h : s.Fitting) (p : Port) (l : List ApIdx) : (s.closeAll p l).Fitting :=
  h.closing (entry_eq_of_besidesPool (besidesPool_closeAll s p l)) fun q c => by
    rw [aperture_closeAll]
    split
    · exact .inr rfl
    · exact .inl rfl

/-- What OWR's checks make sure of (R58). -/
theorem facts_of_owrCheck {e : EntryId} {r : Rights} (h : s.owrCheck p a (some (e, r)) = none) :
    (s.entry e).state ≠ .undefined ∧ (s.entry e).admits p = true ∧ ∀ c, (s.aperture p c).writesTo e = false := by
  simp only [State.owrCheck] at h
  split_ifs at h with _ _ hundef hadmits hduplicate _
  refine ⟨hundef, by simpa using hadmits, fun c => Bool.eq_false_iff.mpr fun hc => hduplicate ?_⟩
  exact Vector.any_eq_true.mpr ⟨c.val, c.isLt, hc⟩

theorem State.Fitting.openWrite (h : s.Fitting) (p : Port) (l : LocalNo) (a : ApIdx) (zero : Bool) (ans : Answer) :
    (s.openWrite p l a zero ans).1.Fitting := by
  unfold State.openWrite
  split
  · exact h
  · exact h
  · rename_i e r hcheck
    dsimp only
    split
    · exact h
    · rename_i b u hu
      have hallocated := allocated_of_allocate hu
      have hfits : u.Fitting := h.congr (funext hallocated.entry) (funext₂ hallocated.aperture)
      obtain ⟨hdef, hadmits, halone⟩ := facts_of_owrCheck hcheck
      refine hfits.setAperture ?_ fun e' he' c hc => ?_
      · rw [funext hallocated.entry]
        exact ⟨hdef, rfl, rfl, by simpa [Entry.admits] using hadmits⟩
      · obtain rfl : e = e' := by simpa [Aperture.writesTo] using he'
        rw [hallocated.aperture, halone c] at hc
        cases hc

/-! ### PUB -/

theorem writesTo_markUpdated (e : EntryId) (g : Generation) (x : Aperture) (e' : EntryId) :
    (x.markUpdated e g).writesTo e' = x.writesTo e' := by
  unfold Aperture.markUpdated
  split
  · split <;> rfl
  · rfl

/-- A staged buffer becomes the current one of its entry (R76, R77). -/
theorem State.Fitting.makeCurrent (h : s.Fitting) (hpool : s.PoolOk) {bind : Binding} {buf : BufId} {base : Version}
    (hap : s.aperture p a = .writing bind buf base) : (s.makeCurrent p bind buf).Fitting := by
  have hentry : (s.makeCurrent p bind buf).entry =
      Function.update s.entry bind.entry ((s.entry bind.entry).published p buf s.timeBase) := by
    rw [← entry_setEntry_eq_update]
    funext e
    rw [entry_makeCurrent, State.entry_setEntry]
  obtain ⟨-, hunheld⟩ := hpool.staged_unheld (p := p) (a := a) (b := buf) (by rw [hap]; rfl)
  refine h.map (aperture_makeCurrent s p bind buf) (fun x e => by rw [writesTo_markUpdated]; exact id) fun q c hc => ?_
  rw [hentry]
  exact hc.publish hpool.currentsApart (hpool.not_pinned hunheld q c) p s.timeBase

theorem State.Fitting.publishMember (h : s.Fitting) {l : List ApIdx} {retain : Bool} (hr : s.PublishReady p retain (a :: l)) :
    (s.publishMember p retain a).Fitting := by
  obtain ⟨bind, buf, base, hap, -⟩ := hr.writes a List.mem_cons_self
  have hcurrent := h.makeCurrent hr.store.pool hap
  have hkept : (s.makeCurrent p bind buf).aperture p a = .writing bind buf base := by
    rw [aperture_makeCurrent, hap, markUpdated_writing]
  have hfree : retain = true → (s.makeCurrent p bind buf).freeList ≠ [] := fun hret => List.length_pos_iff.mp
    ((List.length_pos_iff.mpr (hr.freeList_ne_nil hret)).trans_le (length_freeList_makeCurrent s p bind buf))
  simp only [State.publishMember, hap]
  rcases endMember_cases (s.makeCurrent p bind buf) p retain a bind buf hfree with ⟨-, heq⟩ | ⟨-, f, nb, u, v, hu, heq⟩ <;>
    rw [heq]
  · exact hcurrent.setAperture trivial nofun
  · have hfits : u.Fitting := hcurrent.congr (funext hu.entry) (funext₂ hu.aperture)
    have hwriter : (u.aperture p a) = .writing bind buf base := (hu.aperture p a).trans hkept
    refine hfits.setAperture ?_ fun e he c hc => hfits.apart p c a e hc (by rw [hwriter]; exact he)
    have := hfits.fits p a
    rwa [hwriter] at this

theorem State.Fitting.publish (h : s.Fitting) (hs : s.StoreOk) (p : Port) (mask : Byte) (conditional retain : Bool)
    (ans : Vector Answer 8) : (s.publish p mask conditional retain ans).1.Fitting := by
  rcases publish_cases hs p mask conditional retain ans with heq | ⟨hready, heq⟩ <;> rw [heq]
  · exact h
  · exact (foldl_invariant (f := fun u a => u.publishMember p retain a) (I := fun u l => u.Fitting ∧ u.PublishReady p retain l)
      (fun u a l ⟨hu, hr⟩ => ⟨hu.publishMember hr, hr.publishMember⟩) s _ ⟨h, hready⟩).1

/-! ### The catalog's commands and the tick -/

theorem State.Fitting.toNotify (h : s.Fitting) (i : NuItem) : (s.toNotify i).Fitting := h.congr rfl rfl

/-- A change of an entry in fields that no aperture shows. -/
theorem State.Fitting.setEntry_shown (h : s.Fitting) {e : EntryId} {x : Entry} (hx : x.shown = (s.entry e).shown) :
    (s.setEntry e x).Fitting :=
  h.map (f := id) (fun _ _ => rfl) (fun _ _ => id) fun q c hc => by
    rw [entry_setEntry_eq_update]
    exact (fits_congr (shown_update hx) q _).mpr hc

/-- A new definition of an UNDEFINED entry. -/
theorem State.Fitting.setEntry_of_undefined (h : s.Fitting) {e : EntryId} (hundef : (s.entry e).state = .undefined) {x : Entry}
    (hx : x.current = none) : (s.setEntry e x).Fitting :=
  h.map (f := id) (fun _ _ => rfl) (fun _ _ => id) fun q c hc => by
    rw [entry_setEntry_eq_update]
    exact hc.define hundef hx

theorem State.Fitting.defineEntry (h : s.Fitting) (gid : Half) (length producer : Byte) (period grace : Half) :
    (s.defineEntry gid length producer period grace).1.Fitting := by
  unfold State.defineEntry
  split
  · rename_i e l q _ _ _
    dsimp only
    split
    · exact h
    · rename_i hundef
      refine (h.setEntry_of_undefined (e := e) (not_not.mp hundef) ?_).toNotify _
      rfl
  · exact h

theorem State.Fitting.setFreshness (h : s.Fitting) (gid period grace : Half) : (s.setFreshness gid period grace).1.Fitting := by
  unfold State.setFreshness
  split
  · exact h
  · dsimp only
    split
    · exact h
    · exact h.setEntry_shown rfl

theorem writesTo_withdraw (e : EntryId) (g : Generation) (x : Aperture) (e' : EntryId) :
    (x.withdraw e g).writesTo e' = x.writesTo e' := by
  unfold Aperture.withdraw
  split
  · split <;> rfl
  · split <;> rfl
  · rfl

theorem writesTo_markStale (cur : Option BufId) (x : Aperture) (e : EntryId) : (x.markStale cur).writesTo e = x.writesTo e := by
  unfold Aperture.markStale
  split
  · split <;> rfl
  · rfl

theorem State.Fitting.withdrawEntry (h : s.Fitting) (hpool : s.PoolOk) (gid : Half) : (s.withdrawEntry gid).1.Fitting := by
  cases he : entryOf gid with
  | none => simp only [State.withdrawEntry, he]; exact h
  | some e =>
    by_cases hdef : (s.entry e).state = .undefined
    · simp only [State.withdrawEntry, he, if_pos hdef]; exact h
    · rw [withdrawEntry_eq he hdef]
      have hentry : (s.withdrawn e).entry = Function.update s.entry e (Entry.undefinedWith (s.entry e).generation) := by
        rw [← entry_setEntry_eq_update]
        funext e'
        rw [entry_withdrawn, State.entry_setEntry]
      refine h.map (aperture_withdrawn s e) (fun x e' => by rw [writesTo_withdraw]; exact id) fun q c hc => ?_
      rw [hentry]
      exact hc.withdraw hpool.currentsApart

/-- A visit changes what the apertures show of an entry only by making it STALE (R96, R97). -/
theorem shown_visited (n : Half) (x : Entry) :
    (x.visited n).shown =
      if x.expiresAt n = true ∧ x.state = .current then Entry.shown { x with state := .stale } else x.shown := by
  unfold Entry.visited
  by_cases hexp : x.expiresAt n = true
  · by_cases hcur : x.state = .current <;> simp [hexp, hcur, Entry.shown]
  · have hnot : ¬(x.expiresAt n = true ∧ x.state = .current) := fun h => hexp h.1
    rw [if_neg hexp, if_neg hnot]
    split <;> rfl

/-- The expiry of a CURRENT entry, but for its report (R97). -/
theorem State.Fitting.expireCurrent (h : s.Fitting) {e : EntryId} {x : Entry}
    (hx : x.shown = Entry.shown { s.entry e with state := .stale }) :
    ((s.setEntry e x).mapApertures (Aperture.markStale (s.entry e).current)).Fitting :=
  h.map (State.aperture_mapApertures (s.setEntry e x) _) (fun y e' => by rw [writesTo_markStale]; exact id) fun q c hc => by
    rw [funext (State.mapApertures_entry (s.setEntry e x) _), entry_setEntry_eq_update]
    exact hc.expire hx

theorem State.Fitting.visitEntry (h : s.Fitting) (n : Half) (e : EntryId) : (s.visitEntry n e).Fitting := by
  have hshown := shown_visited n (s.entry e)
  rcases visitEntry_cases s n e with ⟨hexp, hcur, heq⟩ | ⟨-, hcur, heq⟩ | ⟨hexp, heq⟩ <;> rw [heq]
  · rw [if_pos ⟨hexp, hcur⟩] at hshown
    exact (h.expireCurrent hshown).toNotify _
  · rw [if_neg fun h => hcur h.2] at hshown
    exact (h.setEntry_shown hshown).toNotify _
  · rw [if_neg fun h => by simp [hexp] at h] at hshown
    exact h.setEntry_shown hshown

theorem State.Fitting.takeTick (h : s.Fitting) : s.takeTick.Fitting := by
  have hbegun : State.Fitting { s with owed := 0, tickWaiting := false, granted := none } := h.congr rfl rfl
  have hvisits : ∀ (l : List EntryId) (u : State), u.Fitting → (l.foldl (State.visitEntry s.owed) u).Fitting := by
    intro l
    induction l with
    | nil => exact fun _ hu => hu
    | cons e l ih => exact fun u hu => ih _ (hu.visitEntry s.owed e)
  exact (hvisits s.running _ hbegun).congr (funext (entry_arbitrate _)) (funext₂ (aperture_arbitrate _))

/-! ### Every step keeps the bindings -/

theorem fitting_of_held {u : State} (held : t.held = u.held) (hu : u.Fitting) : t.Fitting :=
  hu.congr (congrArg State.entry held :) (congrArg State.aperture held :)

theorem StoreAnswer.fitting {i : Instr} {r : Answered} (hr : StoreAnswer s p i r) (h : s.Fitting) (hs : s.StoreOk) :
    r.1.Fitting := by
  cases hr with
  | ord mask locals ans => exact h.openRead hs.catalog p mask locals ans
  | ref mask => exact h.refresh hs.catalog p mask
  | owr l a zero ans => exact h.openWrite p l a zero ans
  | pub mask conditional retain ans => exact h.publish hs p mask conditional retain ans
  | cls mask => exact h.closeAll p (members mask)
  | ins ans =>
    unfold State.inspect
    split
    · exact h
    · split <;> exact h
  | pst => exact h
  | define gid length producer period grace => exact h.defineEntry gid length producer period grace
  | wdr gid => exact h.withdrawEntry hs.pool gid
  | sfr gid period grace => exact h.setFreshness gid period grace
  | spt threshold =>
    unfold State.setThreshold
    split
    · exact h
    · exact h.congr rfl rfl

theorem exec_fitting {i : Instr} (h : s.Fitting) (hs : s.StoreOk) (hi : exec i s = .next t) : t.Fitting := by
  cases exec_effect hi with
  | traffic held | subscriptions _ held | grants _ held | time _ _ _ _ _ held | data _ _ _ _ _ _ held =>
    exact h.congr (congrArg State.entry held :) (congrArg State.aperture held :)
  | claim _ change => exact h.congr (congrArg State.entry change.held :) (congrArg State.aperture change.held :)
  | tick taken => rw [taken]; exact h.takeTick
  | store p r row taken => rw [taken]; exact fitting_of_held (held_finishStore s p r) (row.fitting h hs)
  | teardown p held => exact fitting_of_held held (h.closeAll p (List.finRange 8))
  | reset _ taken =>
    obtain rfl := Host.Outcome.next.inj ((exec_deviceReset s).symm.trans taken)
    exact ⟨fun q c => by rw [aperture_resetWith]; trivial, fun q c c' e hc => by rw [aperture_resetWith] at hc; cases hc⟩

/-- Settles O54: given the pool's agreement, which every step keeps (O53), the bindings agree exactly when every aperture fits the
catalog (`bindingsOk_iff`); every row keeps that, by `exec_effect`. -/
theorem everyStepKeepsTheBindings : Obligations.EveryStepKeepsTheBindings := by
  intro s t hs hb hstep
  have ht : t.StoreOk := everyStepKeepsTheStoreInvariant s t hs hstep
  have h : s.Fitting := (bindingsOk_iff hs.pool).mp hb
  refine (bindingsOk_iff ht.pool).mpr ?_
  unfold step at hstep
  split at hstep
  · injection hstep with heq
    obtain ⟨_, _, _, _, held⟩ := held_microsecond s
    exact heq ▸ h.congr (congrArg State.entry held :) (congrArg State.aperture held :)
  · rename_i c rest _
    exact exec_fitting (s := { s with pending := rest }) (h.congr rfl rfl) (hs.congr rfl rfl rfl rfl rfl) hstep

end

end Sys2Proof.Machine
end

section
/-! SUPPORT. A set command member by member: the members in their order, the counts over the members taken so far, and what the
pins placed and released and the buffers returned along the way add up to (R27, R28, R36). -/

namespace Sys2Proof.Machine

/-! ### The members in their order -/

/-- The members stand in ascending aperture number (R29). -/
theorem members_pairwise (mask : Byte) : (members mask).Pairwise (· < ·) := (List.pairwise_lt_finRange 8).filter _

section
variable {mask : Byte} {done rest : List ApIdx} {a : ApIdx}

theorem lt_of_members_eq (h : members mask = done ++ a :: rest) : (∀ c ∈ done, c < a) ∧ ∀ c ∈ rest, a < c := by
  have hlt := h ▸ members_pairwise mask
  obtain ⟨-, hrest, hcross⟩ := List.pairwise_append.mp hlt
  exact ⟨fun c hc => hcross c hc a List.mem_cons_self, (List.pairwise_cons.mp hrest).1⟩

theorem not_mem_done (h : members mask = done ++ a :: rest) : a ∉ done := fun ha =>
  lt_irrefl a ((lt_of_members_eq h).1 a ha)

theorem isMember_of_eq (h : members mask = done ++ a :: rest) : mask.getLsbD a = true :=
  (mem_members mask a).mp (by simp [h])

/-- A member with the members ahead of it, every one of which has a lower number. -/
theorem members_split (h : mask.getLsbD a = true) :
    ∃ done rest, members mask = done ++ a :: rest ∧ ∀ c ∈ done, c < a ∧ mask.getLsbD c = true := by
  obtain ⟨done, rest, hm⟩ := List.append_of_mem ((mem_members mask a).mpr h)
  exact ⟨done, rest, hm, fun c hc => ⟨(lt_of_members_eq hm).1 c hc, (mem_members mask c).mp (by simp [hm, hc])⟩⟩

theorem countUpTo_eq_countP_members (mask : Byte) (a : ApIdx) (f : ApIdx → Bool) :
    countUpTo mask a f = (members mask).countP fun c => decide (c ≤ a) && f c := by
  rw [members, List.countP_filter, countUpTo]
  exact List.countP_congr fun c _ => by simp [and_comm, and_assoc]

/-- The members numbered up to `a` are those ahead of it and `a` itself. -/
theorem countUpTo_of_members_eq (h : members mask = done ++ a :: rest) (f : ApIdx → Bool) :
    countUpTo mask a f = (done ++ [a]).countP f := by
  obtain ⟨hdone, hrest⟩ := lt_of_members_eq h
  have hlow : done.countP (fun c => decide (c ≤ a) && f c) = done.countP f :=
    List.countP_congr fun c hc => by simp [(hdone c hc).le]
  have hhigh : rest.countP (fun c => decide (c ≤ a) && f c) = 0 :=
    List.countP_eq_zero.mpr fun c hc => by simp [hrest c hc]
  rw [countUpTo_eq_countP_members, h, List.countP_append, List.countP_cons, List.countP_append, List.countP_singleton, hlow,
    hhigh]
  simp

theorem countUpTo_last (mask : Byte) (f : ApIdx → Bool) : countUpTo mask 7 f = (members mask).countP f := by
  rw [countUpTo_eq_countP_members]
  exact List.countP_congr fun c _ => by simp [show c ≤ 7 from Fin.le_last c]

/-- What holds before the first member, and is handed on by each member, holds along the members. -/
theorem along_members {I : List ApIdx → Prop} (hnil : I [])
    (hstep : ∀ done a rest, members mask = done ++ a :: rest → I done → I (done ++ [a])) : I (members mask) := by
  have key : ∀ rest done, members mask = done ++ rest → I done → I (members mask) := by
    intro rest
    induction rest with
    | nil => intro done h hI; rwa [h, List.append_nil]
    | cons a rest ih =>
      exact fun done h hI => ih (done ++ [a]) (by rw [h, List.append_assoc, List.singleton_append]) (hstep done a rest h hI)
  exact key (members mask) [] rfl hnil

theorem filterMap_concat {α β : Type} (f : α → Option β) (l : List α) (a : α) :
    (l ++ [a]).filterMap f = l.filterMap f ++ (f a).toList := by
  rw [List.filterMap_append]
  cases h : f a <;> simp [h]

end

/-! ### The pool along a set command -/

/-- What a set command has made of the buffers and the free list by some member: the buffers returned, in order, and the pins lost
and gained by each buffer that was not. -/
structure PoolMoved (s u : State) (freed : List BufId) (lost gained : BufId → Nat) : Prop where
  freeList : u.freeList = s.freeList ++ freed
  returned : ∀ b ∈ freed, u.buffer b = { state := .free, holds := 0 }
  state : ∀ b ∉ freed, (u.buffer b).state = (s.buffer b).state
  holds : ∀ b ∉ freed, (u.buffer b).holds + lost b = (s.buffer b).holds + gained b

section
variable {s u : State} {freed : List BufId} {lost gained lost' gained' : BufId → Nat} {b : BufId}

theorem PoolMoved.refl (s : State) : PoolMoved s s [] (fun _ => 0) (fun _ => 0) :=
  ⟨by simp, by simp, fun _ _ => rfl, fun _ _ => rfl⟩

/-- A buffer that is not returned keeps its state, and its hold count rises and falls by the pins gained and lost. -/
theorem PoolMoved.buffer (h : PoolMoved s u freed lost gained) (hb : b ∉ freed) :
    u.buffer b = { s.buffer b with holds := (s.buffer b).holds + gained b - lost b } := by
  have hstate := h.state b hb
  have hholds := h.holds b hb
  rw [← hholds, Nat.add_sub_cancel]
  exact congrArg (BufRec.mk · (u.buffer b).holds) hstate

/-- The buffers, the free list and the counts are all that matters. -/
theorem PoolMoved.congr {v : State} (h : PoolMoved s u freed lost gained) (hbuf : v.buffer = u.buffer)
    (hfree : v.freeList = u.freeList) (hlost : lost' = lost) (hgained : gained' = gained) :
    PoolMoved s v freed lost' gained' := by
  subst hlost hgained
  exact ⟨hfree ▸ h.freeList, hbuf ▸ h.returned, hbuf ▸ h.state, hbuf ▸ h.holds⟩

theorem PoolMoved.setAperture (h : PoolMoved s u freed lost gained) (p : Port) (a : ApIdx) (x : Aperture) :
    PoolMoved s (u.setAperture p a x) freed lost gained := h.congr rfl rfl rfl rfl

theorem PoolMoved.pin (h : PoolMoved s u freed lost gained) (hb : b ∉ freed)
    (hgained : ∀ c, gained' c = gained c + if b = c then 1 else 0) : PoolMoved s (u.pin b) freed lost gained' where
  freeList := h.freeList
  returned c hc := by
    have hne : b ≠ c := fun hbc => hb (hbc ▸ hc)
    rw [buffer_pin, if_neg hne]
    exact h.returned c hc
  state c hc := by
    rw [buffer_pin]
    split
    · rename_i hbc; rw [← hbc]; exact h.state b hb
    · exact h.state c hc
  holds c hc := by
    have := h.holds c hc
    rw [buffer_pin, hgained]
    split
    · rename_i hbc; subst hbc; dsimp only; omega
    · exact this

/-- A buffer returned to the free list that was not on it. -/
theorem PoolMoved.returnBuffer (h : PoolMoved s u freed lost gained) (hlost : ∀ c, b ≠ c → lost' c = lost c) :
    PoolMoved s (u.returnBuffer b) (freed ++ [b]) lost' gained where
  freeList := by rw [freeList_returnBuffer, h.freeList, List.append_assoc]
  returned c hc := by
    rw [buffer_returnBuffer]
    split
    · rfl
    · rename_i hbc
      exact h.returned c ((List.mem_append.mp hc).resolve_right fun hcb => hbc (List.mem_singleton.mp hcb).symm)
  state c hc := by
    simp only [List.mem_append, List.mem_singleton, not_or] at hc
    rw [buffer_returnBuffer, if_neg (Ne.symm hc.2)]
    exact h.state c hc.1
  holds c hc := by
    simp only [List.mem_append, List.mem_singleton, not_or] at hc
    rw [buffer_returnBuffer, if_neg (Ne.symm hc.2), hlost c (Ne.symm hc.2)]
    exact h.holds c hc.1

/-- A pinned buffer has not been returned. -/
theorem PoolMoved.not_freed_of_pinned (h : PoolMoved s u freed lost gained) (hu : u.PoolOk) {p : Port} {a : ApIdx}
    (hp : (u.aperture p a).pins = some b) : b ∉ freed :=
  fun hb => hu.not_pinned (by rw [h.returned b hb]) p a hp

/-- A reader's pin released: the buffer is returned where it is RETIRED and the pin is its last one, counted from the beginning of
the set command (R36). -/
theorem PoolMoved.releasePin (h : PoolMoved s u freed lost gained) (hu : u.PoolOk) {p : Port} {a : ApIdx}
    (hp : (u.aperture p a).pins = some b) (hlost : ∀ c, lost' c = lost c + if b = c then 1 else 0) {x : Option BufId}
    (hx : x = if (s.buffer b).state = .retired ∧ (s.buffer b).holds + gained b = lost' b then some b else none) :
    PoolMoved s (u.releasePin b) (freed ++ x.toList) lost' gained := by
  have hb := h.not_freed_of_pinned hu hp
  have hheld : (u.buffer b).holds ≠ 0 := fun h0 => hu.not_pinned h0 p a hp
  have hlostb : lost' b = lost b + 1 := by rw [hlost, if_pos rfl]
  have hstate := h.state b hb
  have hholds := h.holds b hb
  rcases releasePin_cases u b with ⟨hret, hone, heq⟩ | ⟨hkept, heq⟩ <;> rw [heq]
  · rw [hx, if_pos ⟨hstate ▸ hret, by omega⟩]
    exact h.returnBuffer fun c hc => by rw [hlost, if_neg hc, Nat.add_zero]
  · rw [hx, if_neg fun hlast => hkept ⟨hstate ▸ hlast.1, by omega⟩, Option.toList_none, List.append_nil]
    refine ⟨h.freeList, fun c hc => ?_, fun c hc => ?_, fun c hc => ?_⟩ <;> rw [State.buffer_setBuffer]
    · have hne : b ≠ c := fun hbc => hb (hbc ▸ hc)
      rw [if_neg hne]
      exact h.returned c hc
    · split
      · rename_i hbc; rw [← hbc]; exact hstate
      · exact h.state c hc
    · have := h.holds c hc
      rw [hlost]
      split
      · rename_i hbc; subst hbc; dsimp only; omega
      · exact this

end

/-! ### A command whose turn has come -/

section
variable {s : State} {p : Port} {c : Pending}

theorem exec_ord (h : s.storeTurn p c) {mask : Byte} {locals : Vector LocalNo 8} (hreq : c.req = .ord mask locals) :
    exec (.ord p) s = .next (s.finishStore p (s.openRead p mask locals c.answers)) := by
  obtain ⟨req, stage, locals, answers⟩ := c
  subst hreq
  simp only [exec, execOrd, (storeCommand_eq_some s p _).mpr h]

theorem exec_ref (h : s.storeTurn p c) {mask : Byte} (hreq : c.req = .ref mask) :
    exec (.ref p) s = .next (s.finishStore p (s.refresh p mask)) := by
  obtain ⟨req, stage, locals, answers⟩ := c
  subst hreq
  simp only [exec, execRef, (storeCommand_eq_some s p _).mpr h]

theorem exec_owr (h : s.storeTurn p c) {l : LocalNo} {a : ApIdx} {zero : Bool} (hreq : c.req = .owr l a zero) :
    exec (.owr p) s = .next (s.finishStore p (s.openWrite p l a zero c.answers[0])) := by
  obtain ⟨req, stage, locals, answers⟩ := c
  subst hreq
  simp only [exec, execOwr, (storeCommand_eq_some s p _).mpr h]

theorem exec_cls (h : s.storeTurn p c) {mask : Byte} (hreq : c.req = .cls mask) :
    exec (.cls p) s = .next (s.finishStore p (s.closeAll p (members mask), .ok, noResults)) := by
  obtain ⟨req, stage, locals, answers⟩ := c
  subst hreq
  simp only [exec, execCls, (storeCommand_eq_some s p _).mpr h]

end

end Sys2Proof.Machine
end

section
/-! PROOF. CLS (O41) and the Store Controller's step of a teardown (O18): closing a set of apertures. -/

namespace Sys2Proof.Machine

section
variable {s : State} {p : Port} {a : ApIdx} {b : BufId} {mask : Byte}

/-! ### Closing one aperture -/

/-- An aperture is CLOSED, or it pins a buffer, or it stages one. -/
theorem closed_or_pins_or_stages (x : Aperture) : x = .closed ∨ (∃ b, x.pins = some b) ∨ ∃ b, x.stages = some b := by
  cases x with
  | closed => exact .inl rfl
  | reading _ b _ _ _ => exact .inr (.inl ⟨b, rfl⟩)
  | writing _ b _ | orphaned _ b _ => exact .inr (.inr ⟨b, rfl⟩)

theorem closeAperture_of_closed (h : s.aperture p a = .closed) : s.closeAperture p a = s := by
  simp only [State.closeAperture, h]

theorem closeAperture_of_pins (h : (s.aperture p a).pins = some b) :
    s.closeAperture p a = (s.releasePin b).setAperture p a .closed := by
  unfold State.closeAperture
  split <;> rename_i hap <;> rw [hap] at h <;> cases h
  rfl

theorem closeAperture_of_stages (h : (s.aperture p a).stages = some b) :
    s.closeAperture p a = (s.returnBuffer b).setAperture p a .closed := by
  unfold State.closeAperture
  split <;> rename_i hap <;> rw [hap] at h <;> cases h <;> rfl

theorem returnedBy_of_closed (h : s.aperture p a = .closed) : s.returnedBy p mask a = none := by
  simp only [State.returnedBy, h]

theorem returnedBy_of_pins (h : (s.aperture p a).pins = some b) :
    s.returnedBy p mask a =
      if (s.buffer b).state = .retired ∧ (s.buffer b).holds = s.pinsUpTo p mask a b then some b else none := by
  unfold State.returnedBy
  split <;> rename_i hap <;> rw [hap] at h <;> cases h
  rfl

theorem returnedBy_of_stages (h : (s.aperture p a).stages = some b) : s.returnedBy p mask a = some b := by
  unfold State.returnedBy
  split <;> rename_i hap <;> rw [hap] at h <;> cases h <;> rfl

theorem State.PoolOk.closeAperture (h : s.PoolOk) (p : Port) (a : ApIdx) : (s.closeAperture p a).PoolOk := by
  rcases closed_or_pins_or_stages (s.aperture p a) with hc | ⟨b, hp⟩ | ⟨b, hst⟩
  · rw [closeAperture_of_closed hc]; exact h
  · rw [closeAperture_of_pins hp]; exact h.closeReader hp
  · rw [closeAperture_of_stages hst]; exact h.closeWriter hst

theorem State.PoolOk.closeAll (h : s.PoolOk) (p : Port) (l : List ApIdx) : (s.closeAll p l).PoolOk := by
  induction l generalizing s with
  | nil => exact h
  | cons a l ih => exact ih (h.closeAperture p a)

/-! ### Closing the members of a set -/

/-- How many of the listed apertures pin buffer `b`. -/
def State.pinsAmong (s : State) (p : Port) (l : List ApIdx) (b : BufId) : Nat :=
  l.countP fun c => decide ((s.aperture p c).pins = some b)

theorem pinsAmong_concat (l : List ApIdx) :
    s.pinsAmong p (l ++ [a]) b = s.pinsAmong p l b + if (s.aperture p a).pins = some b then 1 else 0 := by
  simp [State.pinsAmong]

theorem closeAll_concat (s : State) (p : Port) (l : List ApIdx) (a : ApIdx) :
    s.closeAll p (l ++ [a]) = (s.closeAll p l).closeAperture p a := List.foldl_concat _ s a l

/-- What the closings of the members add up to: readers release their pins, and RETIRED buffers with their last pin and staged
buffers are returned in the order of the members (R35, R36, R61, R62). -/
theorem closeAll_moved (h : s.PoolOk) (p : Port) (mask : Byte) :
    PoolMoved s (s.closeAll p (members mask)) ((members mask).filterMap (s.returnedBy p mask))
      (s.pinsAmong p (members mask)) (fun _ => 0) := by
  refine along_members (I := fun done => PoolMoved s (s.closeAll p done) (done.filterMap (s.returnedBy p mask))
    (s.pinsAmong p done) (fun _ => 0)) (.refl s) fun done a rest hm hdone => ?_
  have hu := h.closeAll p done
  have hap : (s.closeAll p done).aperture p a = s.aperture p a := by
    rw [aperture_closeAll, if_neg fun ha => not_mem_done hm ha.2]
  rw [closeAll_concat, filterMap_concat]
  rcases closed_or_pins_or_stages (s.aperture p a) with hc | ⟨b, hp⟩ | ⟨b, hst⟩
  · rw [closeAperture_of_closed (hap.trans hc), returnedBy_of_closed hc, Option.toList_none, List.append_nil]
    exact hdone.congr rfl rfl (funext fun b => by simp [pinsAmong_concat, hc]) rfl
  · rw [closeAperture_of_pins (hap ▸ hp)]
    refine PoolMoved.setAperture ?_ p a _
    refine hdone.releasePin hu (hap ▸ hp) (fun c => by simp [pinsAmong_concat, hp]) ?_
    rw [returnedBy_of_pins hp, State.pinsUpTo, countUpTo_of_members_eq hm]
    rfl
  · rw [closeAperture_of_stages (hap ▸ hst), returnedBy_of_stages hst]
    refine PoolMoved.setAperture ?_ p a _
    exact hdone.returnBuffer fun c _ => by simp [pinsAmong_concat, pins_of_stages hst]

theorem closedTo_closeAll (h : s.PoolOk) (p : Port) (mask : Byte) : s.ClosedTo p mask (s.closeAll p (members mask)) := by
  have hmoved := closeAll_moved h p mask
  refine ⟨fun q a => ?_, hmoved.freeList, hmoved.returned, fun b hb => ?_, ?_⟩
  · rw [aperture_closeAll]
    simp only [mem_members, eq_comm]
  · rw [hmoved.buffer hb, State.pinsUpTo, countUpTo_last]
    rfl
  · conv_lhs => rw [closeAll_frame]

/-- Closings only add to the free list. -/
theorem State.ClosedTo.length_freeList {u : State} (h : s.ClosedTo p mask u) : s.freeList.length ≤ u.freeList.length := by
  rw [h.freeList, List.length_append]
  exact Nat.le_add_right _ _

end

/-- Settles O41: the closings one by one add up to `State.ClosedTo`. -/
theorem closeReturnsPinsAndBuffers : Obligations.CloseReturnsPinsAndBuffers := by
  intro s p c mask hpool hturn hreq
  have hclosed := closedTo_closeAll hpool p mask
  refine ⟨s.closeAll p (members mask), ?_, hclosed⟩
  rw [exec_cls hturn hreq, finishStore_of_length_le hclosed.length_freeList]
  rfl

/-- SC takes a granted teardown request whose closings `u` hand no crossing (R38, R153). -/
theorem exec_teardownSc {s u : State} {p : Port} (hgranted : s.granted = some (.port p))
    (hsession : (s.port p).session = .teardown .store) (hu : s.closeAll p (List.finRange 8) = u)
    (hlen : s.freeList.length ≤ u.freeList.length) :
    exec (.teardownSc p) s =
      .next (State.arbitrate (State.setPort { u with granted := none } p { u.port p with session := .teardown .claim })) := by
  rw [exec, execTeardownSc, if_pos ⟨hgranted, hsession⟩, hu, State.endStoreEvent]
  dsimp only
  rw [if_neg (by omega)]
  rfl

/-- Settles O18: the teardown's step closes all eight apertures as a CLS does. -/
theorem teardownClosesTheApertures : Obligations.TeardownClosesTheApertures := by
  intro s p hpool hgranted hsession
  have hclosed := closedTo_closeAll hpool p 0xFF
  have hall : members 0xFF = List.finRange 8 := by decide
  rw [hall] at hclosed
  have hport : (s.closeAll p (List.finRange 8)).port p = s.port p := by
    unfold State.port
    rw [closeAll_frame]
  refine ⟨_, _, ?_, hclosed, rfl⟩
  rw [exec_teardownSc hgranted hsession rfl hclosed.length_freeList, hport]

end Sys2Proof.Machine
end

section
/-! PROOF. ORD (O36) and REF (O38) open and move a whole set, or are refused by their first failing member (O37). -/

namespace Sys2Proof.Machine

/-! ### A set of readers, member by member -/

section
variable {s t : State} {p : Port} {a : ApIdx} {b : BufId} {mask : Byte}

/-- States that agree beside the pool differ in the pool at most. -/
theorem eq_with_pool_of_besidesPool (h : t.besidesPool = s.besidesPool) :
    t = { s with buffers := t.buffers, freeList := t.freeList, apertures := t.apertures, mem := t.mem } := by
  calc t = { t.besidesPool with buffers := t.buffers, freeList := t.freeList, apertures := t.apertures, mem := t.mem } := rfl
    _ = { s.besidesPool with buffers := t.buffers, freeList := t.freeList, apertures := t.apertures, mem := t.mem } := by
      rw [h]
    _ = { s with buffers := t.buffers, freeList := t.freeList, apertures := t.apertures, mem := t.mem } := rfl

theorem eq_of_besidesPool (h : t.besidesPool = s.besidesPool) (hmem : t.mem = s.mem) :
    t = { s with buffers := t.buffers, freeList := t.freeList, apertures := t.apertures } := by
  conv_lhs => rw [eq_with_pool_of_besidesPool h, hmem]

/-- A fold over apertures that each replace their own record leaves every other record. -/
theorem aperture_foldl_of_not_mem {f : State → ApIdx → State}
    (hown : ∀ u a q c, ¬(q = p ∧ c = a) → (f u a).aperture q c = u.aperture q c) (s : State) {l : List ApIdx} {q : Port}
    {c : ApIdx} (hc : ¬(q = p ∧ c ∈ l)) : (l.foldl f s).aperture q c = s.aperture q c := by
  induction l generalizing s with
  | nil => rfl
  | cons a l ih =>
    rw [List.foldl_cons, ih _ fun h => hc ⟨h.1, List.mem_cons_of_mem a h.2⟩, hown]
    exact fun h => hc ⟨h.1, h.2 ▸ List.mem_cons_self⟩

/-- The members' records after such a fold, where each new record follows from the old one and from what stands beside the pool. -/
theorem aperture_foldl_of_mem {f : State → ApIdx → State} (hbeside : ∀ u a, (f u a).besidesPool = u.besidesPool)
    (hown : ∀ u a q c, ¬(q = p ∧ c = a) → (f u a).aperture q c = u.aperture q c) {l : List ApIdx} (hl : l.Nodup)
    (ha : a ∈ l) {x : Aperture}
    (hx : ∀ u, u.besidesPool = s.besidesPool → u.aperture p a = s.aperture p a → (f u a).aperture p a = x) :
    (l.foldl f s).aperture p a = x := by
  obtain ⟨done, rest, rfl⟩ := List.append_of_mem ha
  obtain ⟨-, hrest, hcross⟩ := List.pairwise_append.mp hl
  have hdone : a ∉ done := fun h => hcross a h a List.mem_cons_self rfl
  have hrest : a ∉ rest := (List.nodup_cons.mp hrest).1
  rw [List.foldl_append, List.foldl_cons, aperture_foldl_of_not_mem hown _ fun h => hrest h.2]
  exact hx _ (foldl_keeps s State.besidesPool f hbeside done) (aperture_foldl_of_not_mem hown s fun h => hdone h.2)

theorem firstFailure_members_eq_none {check : ApIdx → Option Status}
    (h : ∀ a : ApIdx, mask.getLsbD a = true → check a = none) : firstFailure check (members mask) = none :=
  (firstFailure_eq_none _ _).mpr fun a ha => h a ((mem_members mask a).mp ha)

/-- The lowest member that fails is the one reported (R52, R55). -/
theorem firstFailure_members_eq_some {check : ApIdx → Option Status} {st : Status} (ha : mask.getLsbD a = true)
    (hlow : ∀ c : ApIdx, c < a → mask.getLsbD c = true → check c = none) (hst : check a = some st) :
    firstFailure check (members mask) = some (a, st) := by
  obtain ⟨done, rest, hm, hdone⟩ := members_split ha
  exact (firstFailure_eq_some _ _ _ _).mpr ⟨done, rest, hm, fun c hc => hlow c (hdone c hc).1 (hdone c hc).2, hst⟩

theorem failedAt_eq (a : ApIdx) : failedAt a = #v[BitVec.ofNat 32 a.val, 0, 0, 0, 0, 0, 0, 0, 0, 0] := resultWords_eq _

theorem pinEntry_of_current {bind : Binding} {x : Entry} (h : x.current = some b) :
    s.pinEntry p a bind x = (s.pin b).setAperture p a (.reading bind b x.version (x.publishTime.getD 0)
      { updated := false, stale := decide (x.state = .stale), gone := false }) := by
  simp only [State.pinEntry, h]

theorem aperture_pinEntry_other (s : State) {bind : Binding} {x : Entry} {q : Port} {c : ApIdx} (h : ¬(q = p ∧ c = a)) :
    (s.pinEntry p a bind x).aperture q c = s.aperture q c := by
  unfold State.pinEntry
  split
  · rfl
  · rw [State.aperture_setAperture, if_neg fun hq => h ⟨hq.1.symm, hq.2.symm⟩]
    rfl

end

/-! ### ORD -/

section
variable {s : State} {p : Port} {a : ApIdx} {mask : Byte} {locals : Vector LocalNo 8} {ans : Vector Answer 8} {e : EntryId}
  {r : Rights}

theorem ordCheck_of_not_closed (h : s.aperture p a ≠ .closed) : s.ordCheck p ans a = some .apertureState := if_pos h

theorem ordCheck_of_no_grant (h : s.aperture p a = .closed) (hans : ans[a] = none) :
    s.ordCheck p ans a = some .noGrant := by
  simp only [State.ordCheck, h, hans, ne_eq, not_true_eq_false, if_false]

theorem ordCheck_of_grant (h : s.aperture p a = .closed) (hans : ans[a] = some (e, r)) :
    s.ordCheck p ans a =
      if r.read = false then some .noRight
      else if (s.entry e).state = .undefined then some .undefined
      else if (s.entry e).state = .empty then some .empty
      else none := by
  simp only [State.ordCheck, h, hans, ne_eq, not_true_eq_false, if_false, Bool.not_eq_eq_eq_not, Bool.not_true]
  cases (s.entry e).state <;> rfl

theorem ordCheck_eq_none (h : s.aperture p a = .closed) (hans : ans[a] = some (e, r)) (hread : r.read = true)
    (hstate : (s.entry e).state = .current ∨ (s.entry e).state = .stale) : s.ordCheck p ans a = none := by
  rw [ordCheck_of_grant h hans]
  rcases hstate with hs | hs <;> simp [hread, hs]

/-- Whether the answer for a member names an entry whose current buffer is `b`. -/
def State.answersWith (s : State) (ans : Vector Answer 8) (b : BufId) (a : ApIdx) : Bool :=
  match ans[a] with
  | some (e, _) => decide ((s.entry e).current = some b)
  | none => false

theorem answersWith_of_current {b : BufId} (hans : ans[a] = some (e, r)) (hcur : (s.entry e).current = some b) (c : BufId) :
    s.answersWith ans c a = decide (b = c) := by
  simp only [State.answersWith, hans, hcur, Option.some.injEq]

theorem ordMember_of_current {b : BufId} (hans : ans[a] = some (e, r)) (hcur : (s.entry e).current = some b) :
    s.ordMember p locals ans a = (s.pin b).setAperture p a
      (.reading { localNo := locals[a], entry := e, generation := (s.entry e).generation, length := (s.entry e).length } b
        (s.entry e).version ((s.entry e).publishTime.getD 0)
        { updated := false, stale := decide ((s.entry e).state = .stale), gone := false }) := by
  simp only [State.ordMember, hans, pinEntry_of_current hcur]

theorem aperture_ordMember_other (s : State) (a : ApIdx) (q : Port) (c : ApIdx) (h : ¬(q = p ∧ c = a)) :
    (s.ordMember p locals ans a).aperture q c = s.aperture q c := by
  unfold State.ordMember
  split
  · rfl
  · exact aperture_pinEntry_other s h

/-- Every member of an accepted ORD pins its entry's current buffer (R53). -/
theorem openRead_moved
    (h : ∀ a : ApIdx, mask.getLsbD a = true → ∃ e r b, ans[a] = some (e, r) ∧ (s.entry e).current = some b) :
    PoolMoved s ((members mask).foldl (fun s a => s.ordMember p locals ans a) s) [] (fun _ => 0)
      (fun b => (members mask).countP (s.answersWith ans b)) := by
  refine along_members (I := fun done => PoolMoved s (done.foldl (fun s a => s.ordMember p locals ans a) s) [] (fun _ => 0)
    (fun b => done.countP (s.answersWith ans b))) (.refl s) fun done a rest hm hdone => ?_
  obtain ⟨e, r, b, hans, hcur⟩ := h a (isMember_of_eq hm)
  rw [List.foldl_concat]
  have hentry := entry_of_besidesPool
    (foldl_keeps s State.besidesPool (fun s a => s.ordMember p locals ans a) (by simp) done) e
  rw [ordMember_of_current hans (hentry ▸ hcur)]
  refine PoolMoved.setAperture ?_ p a _
  exact hdone.pin List.not_mem_nil fun c => by simp [answersWith_of_current hans hcur]

end

/-- Settles O36: the members are opened one by one, each by `ordMember_of_current`. -/
theorem openReadPinsTheWholeSet : Obligations.OpenReadPinsTheWholeSet := by
  intro s p c mask locals hturn hreq hready
  have hchecks : firstFailure (s.ordCheck p c.answers) (members mask) = none :=
    firstFailure_members_eq_none fun a ha => by
      obtain ⟨hclosed, e, r, b, t, hans, hread, hstate, -⟩ := hready a ha
      exact ordCheck_eq_none hclosed hans hread hstate
  have hmoved := openRead_moved (s := s) (p := p) (locals := locals) (ans := c.answers) (mask := mask) fun a ha => by
    obtain ⟨-, e, r, b, t, hans, -, -, hcur, -⟩ := hready a ha
    exact ⟨e, r, b, hans, hcur⟩
  have hopen : s.openRead p mask locals c.answers =
      ((members mask).foldl (fun s a => s.ordMember p locals c.answers a) s, .ok, noResults) := by
    simp only [State.openRead, hchecks]
  have hmem : ((members mask).foldl (fun s a => s.ordMember p locals c.answers a) s).mem = s.mem := by
    have := mem_openRead s p mask locals c.answers
    rwa [hopen] at this
  have hfree := hmoved.freeList.trans (List.append_nil _)
  refine ⟨(members mask).foldl (fun s a => s.ordMember p locals c.answers a) s, ?_, fun a e r b t ha hans hcur htime => ?_,
    fun q a hqa => ?_, fun b => ?_, ?_⟩
  · rw [exec_ord hturn hreq, hopen, finishStore_of_length_le (by rw [hfree])]
    rfl
  · refine aperture_foldl_of_mem (fun u a => besidesPool_ordMember u p locals c.answers a) aperture_ordMember_other
      (members_nodup mask) ((mem_members mask a).mpr ha) fun u hu _ => ?_
    rw [← entry_of_besidesPool hu e] at hcur htime ⊢
    rw [ordMember_of_current hans hcur, htime, State.aperture_setAperture, if_pos ⟨rfl, rfl⟩]
    rfl
  · exact aperture_foldl_of_not_mem aperture_ordMember_other s fun h => hqa ⟨h.1, (mem_members mask a).mp h.2⟩
  · rw [hmoved.buffer List.not_mem_nil, countUpTo_last]
    rfl
  · conv_lhs => rw [eq_of_besidesPool (foldl_keeps s State.besidesPool _ (by simp) (members mask)) hmem, hfree]

/-! ### REF -/

section
variable {s : State} {p : Port} {a : ApIdx} {mask : Byte} {bind : Binding} {buf cur : BufId} {v : Version} {t : Time}
  {f : ReadFlags}

theorem refCheck_of_not_reading (h : (s.aperture p a).pins = none) : s.refCheck p a = some .apertureState := by
  unfold State.refCheck
  split
  · rename_i hap; rw [hap] at h; cases h
  · rfl

theorem refCheck_of_reading (h : s.aperture p a = .reading bind buf v t f) :
    s.refCheck p a =
      if f.gone = true ∨ (s.entry bind.entry).state = .undefined ∨ (s.entry bind.entry).generation ≠ bind.generation then
        some .entryGone
      else if (s.entry bind.entry).state = .empty then some .empty
      else none := by
  simp only [State.refCheck, h]

theorem refCheck_eq_none (h : s.aperture p a = .reading bind buf v t f) (hlive : f.gone = false)
    (hstate : (s.entry bind.entry).state = .current ∨ (s.entry bind.entry).state = .stale)
    (hgen : (s.entry bind.entry).generation = bind.generation) : s.refCheck p a = none := by
  rw [refCheck_of_reading h]
  rcases hstate with hs | hs <;> simp [hlive, hs, hgen]

theorem refMember_of_kept (h : s.aperture p a = .reading bind buf v t f) (hcur : (s.entry bind.entry).current = some buf) :
    s.refMember p a = s.setAperture p a
      (.reading bind buf v t { updated := false, stale := decide ((s.entry bind.entry).state = .stale), gone := false }) := by
  simp only [State.refMember, h, hcur, if_true]

theorem refMember_of_moved (h : s.aperture p a = .reading bind buf v t f) (hcur : (s.entry bind.entry).current = some cur)
    (hne : buf ≠ cur) :
    s.refMember p a = ((s.releasePin buf).pin cur).setAperture p a
      (.reading bind cur (s.entry bind.entry).version ((s.entry bind.entry).publishTime.getD 0)
        { updated := false, stale := decide ((s.entry bind.entry).state = .stale), gone := false }) := by
  have hmoved : (s.entry bind.entry).current ≠ some buf := fun heq => hne (Option.some.inj (heq.symm.trans hcur))
  simp only [State.refMember, h, if_neg hmoved, pinEntry_of_current hcur]

theorem aperture_refMember_other (s : State) (a : ApIdx) (q : Port) (c : ApIdx) (h : ¬(q = p ∧ c = a)) :
    (s.refMember p a).aperture q c = s.aperture q c := by
  have hother : ¬(p = q ∧ a = c) := fun hq => h ⟨hq.1.symm, hq.2.symm⟩
  unfold State.refMember
  split
  · dsimp only
    split
    · rw [State.aperture_setAperture, if_neg hother]
    · rw [aperture_pinEntry_other _ h, aperture_releasePin]
  · rfl

/-- The record of a member after its refresh (R50, R56). -/
theorem aperture_refMember (h : s.aperture p a = .reading bind buf v t f) (hcur : (s.entry bind.entry).current = some cur)
    {time : Time} (htime : (s.entry bind.entry).publishTime = some time) :
    (s.refMember p a).aperture p a =
      .reading bind cur (if buf = cur then v else (s.entry bind.entry).version) (if buf = cur then t else time)
        { updated := false, stale := decide ((s.entry bind.entry).state = .stale), gone := false } := by
  by_cases hkept : buf = cur
  · subst hkept
    rw [refMember_of_kept h hcur, State.aperture_setAperture, if_pos ⟨rfl, rfl⟩, if_pos rfl, if_pos rfl]
  · rw [refMember_of_moved h hcur hkept, State.aperture_setAperture, if_pos ⟨rfl, rfl⟩, if_neg hkept, if_neg hkept, htime]
    rfl

/-- A member that moves gives up its pin and takes the new one as a CLOSED aperture would (R56). -/
theorem State.PoolOk.refMember (h : s.PoolOk) (hap : s.aperture p a = .reading bind buf v t f)
    (hcur : (s.entry bind.entry).current = some cur) : (s.refMember p a).PoolOk := by
  rw [refMember_eq hap (by rw [hcur]; rfl)]
  split
  · refine h.congr rfl (fun _ => rfl) (fun _ => rfl) (fun q c => ?_) (fun q c => ?_)
    all_goals
      rw [State.aperture_setAperture]
      split
      · rename_i hq; rw [← hq.1, ← hq.2, hap]; rfl
      · rfl
  · have hentry : (s.closeAperture p a).entry bind.entry = s.entry bind.entry := by rw [closeAperture_frame]; rfl
    rw [pinEntry_of_current hcur]
    exact (h.closeAperture p a).openReader (by simp [aperture_closeAperture]) (hentry ▸ hcur) _ _ _ _

/-! #### What leaves and what joins -/

theorem leaves_of_reading (h : s.aperture p a = .reading bind buf v t f) :
    s.leaves p a = if (s.entry bind.entry).current = some buf then none else some buf := by
  simp only [State.leaves, h]

theorem joins_of_reading (h : s.aperture p a = .reading bind buf v t f) :
    s.joins p a = if (s.entry bind.entry).current = some buf then none else (s.entry bind.entry).current := by
  simp only [State.joins, h]

/-- A buffer that a member joins is an entry's current one, hence not RETIRED (R25). -/
theorem not_retired_of_joins (h : s.PoolOk) {b : BufId} (hj : s.joins p a = some b) : (s.buffer b).state ≠ .retired := by
  unfold State.joins at hj
  split at hj
  · rename_i bind _ _ _ _ _
    split at hj
    · cases hj
    · rw [(h.current b bind.entry).mpr hj]
      nofun
  · cases hj

theorem retired_of_freedByRefresh {b : BufId} (h : s.freedByRefresh p mask a = some b) : (s.buffer b).state = .retired := by
  unfold State.freedByRefresh at h
  split at h
  · split at h
    · rename_i hret; cases h; exact hret.1
    · cases h
  · cases h

/-- How many of the listed members leave buffer `b`. -/
def State.leavesAmong (s : State) (p : Port) (l : List ApIdx) (b : BufId) : Nat :=
  l.countP fun c => decide (s.leaves p c = some b)

/-- How many of the listed members join buffer `b`. -/
def State.joinsAmong (s : State) (p : Port) (l : List ApIdx) (b : BufId) : Nat :=
  l.countP fun c => decide (s.joins p c = some b)

theorem leavesAmong_concat (l : List ApIdx) (b : BufId) :
    s.leavesAmong p (l ++ [a]) b = s.leavesAmong p l b + if s.leaves p a = some b then 1 else 0 := by
  simp [State.leavesAmong]

theorem joinsAmong_concat (l : List ApIdx) (b : BufId) :
    s.joinsAmong p (l ++ [a]) b = s.joinsAmong p l b + if s.joins p a = some b then 1 else 0 := by
  simp [State.joinsAmong]

theorem joinsAmong_of_retired (h : s.PoolOk) {b : BufId} (hb : (s.buffer b).state = .retired) (l : List ApIdx) :
    s.joinsAmong p l b = 0 :=
  List.countP_eq_zero.mpr fun _ _ hc => not_retired_of_joins h (of_decide_eq_true hc) hb

/-- What a member's leaving frees, counted along the members (R36). -/
theorem freedByRefresh_of_leaves (h : s.PoolOk) {done rest : List ApIdx} (hm : members mask = done ++ a :: rest) {b : BufId}
    (hl : s.leaves p a = some b) :
    s.freedByRefresh p mask a =
      if (s.buffer b).state = .retired ∧
        (s.buffer b).holds + s.joinsAmong p done b = s.leavesAmong p (done ++ [a]) b then some b else none := by
  simp only [State.freedByRefresh, hl]
  refine if_congr (and_congr_right fun hret => ?_) rfl rfl
  rw [joinsAmong_of_retired h hret, countUpTo_of_members_eq hm]
  rfl

/-- Every member reads an entry that has a current buffer. -/
def State.ReadersHaveValues (s : State) (p : Port) (mask : Byte) : Prop :=
  ∀ a : ApIdx, mask.getLsbD a = true → ∃ bind buf v t f cur, s.aperture p a = .reading bind buf v t f ∧
    (s.entry bind.entry).current = some cur

/-- What the refreshes of the members add up to: the pins left and joined, and RETIRED buffers returned with their last pin (R36,
R56). -/
theorem refresh_moved (h : s.PoolOk) (hready : s.ReadersHaveValues p mask) :
    PoolMoved s ((members mask).foldl (fun s a => s.refMember p a) s) ((members mask).filterMap (s.freedByRefresh p mask))
      (s.leavesAmong p (members mask)) (s.joinsAmong p (members mask)) := by
  refine (along_members (I := fun done => (done.foldl (fun s a => s.refMember p a) s).PoolOk ∧
    PoolMoved s (done.foldl (fun s a => s.refMember p a) s) (done.filterMap (s.freedByRefresh p mask))
      (s.leavesAmong p done) (s.joinsAmong p done)) ⟨h, .refl s⟩ ?_).2
  rintro done a rest hm ⟨hpool, hdone⟩
  obtain ⟨bind, buf, v, t, f, cur, hap, hcur⟩ := hready a (isMember_of_eq hm)
  have hap' : (done.foldl (fun s a => s.refMember p a) s).aperture p a = .reading bind buf v t f :=
    (aperture_foldl_of_not_mem aperture_refMember_other s fun ha => not_mem_done hm ha.2).trans hap
  have hcur' : ((done.foldl (fun s a => s.refMember p a) s).entry bind.entry).current = some cur := by
    rw [entry_of_besidesPool (foldl_keeps s State.besidesPool (fun s a => s.refMember p a) (by simp) done)]
    exact hcur
  rw [List.foldl_concat]
  refine ⟨hpool.refMember hap' hcur', ?_⟩
  by_cases hkept : buf = cur
  · subst hkept
    have hl : s.leaves p a = none := by rw [leaves_of_reading hap, if_pos hcur]
    have hj : s.joins p a = none := by rw [joins_of_reading hap, if_pos hcur]
    have hf : s.freedByRefresh p mask a = none := by simp only [State.freedByRefresh, hl]
    rw [refMember_of_kept hap' hcur', filterMap_concat, hf, Option.toList_none, List.append_nil]
    exact (hdone.setAperture p a _).congr rfl rfl (funext fun b => by simp [leavesAmong_concat, hl])
      (funext fun b => by simp [joinsAmong_concat, hj])
  · have hmoved : (s.entry bind.entry).current ≠ some buf := fun heq => hkept (Option.some.inj (heq.symm.trans hcur))
    have hl : s.leaves p a = some buf := by rw [leaves_of_reading hap, if_neg hmoved]
    have hj : s.joins p a = some cur := by rw [joins_of_reading hap, if_neg hmoved, hcur]
    have hnot : cur ∉ (done ++ [a]).filterMap (s.freedByRefresh p mask) := fun hmem => by
      obtain ⟨c, -, hc⟩ := List.mem_filterMap.mp hmem
      exact not_retired_of_joins h hj (retired_of_freedByRefresh hc)
    rw [refMember_of_moved hap' hcur' hkept]
    refine PoolMoved.setAperture (PoolMoved.pin (gained := s.joinsAmong p done) ?_ hnot fun c => ?_) p a _
    · rw [filterMap_concat]
      exact hdone.releasePin hpool (by rw [hap']; rfl) (fun c => by simp [leavesAmong_concat, hl])
        (freedByRefresh_of_leaves h hm hl)
    · simp [joinsAmong_concat, hj]

end

/-- Settles O38: the members are refreshed one by one, each by `aperture_refMember`, and the pool follows by `refresh_moved`. -/
theorem refreshMovesTheWholeSet : Obligations.RefreshMovesTheWholeSet := by
  intro s p c mask hpool hturn hreq hready
  have hchecks : firstFailure (s.refCheck p) (members mask) = none :=
    firstFailure_members_eq_none fun a ha => by
      obtain ⟨b, buf, v, t, f, cur, time, hap, hlive, hstate, hgen, -⟩ := hready a ha
      exact refCheck_eq_none hap hlive hstate hgen
  have hmoved := refresh_moved (mask := mask) (p := p) hpool fun a ha => by
    obtain ⟨b, buf, v, t, f, cur, time, hap, -, -, -, hcur, -⟩ := hready a ha
    exact ⟨b, buf, v, t, f, cur, hap, hcur⟩
  have hrefresh : s.refresh p mask = ((members mask).foldl (fun s a => s.refMember p a) s, .ok, noResults) := by
    simp only [State.refresh, hchecks]
  have hmem : ((members mask).foldl (fun s a => s.refMember p a) s).mem = s.mem := by
    have := mem_refresh s p mask
    rwa [hrefresh] at this
  refine ⟨(members mask).foldl (fun s a => s.refMember p a) s, ?_, fun a b buf v t f cur time ha hap hcur htime => ?_,
    fun q a hqa => ?_, hmoved.freeList, hmoved.returned, fun b hb => ?_,
    eq_of_besidesPool (foldl_keeps s State.besidesPool _ (by simp) (members mask)) hmem⟩
  · rw [exec_ref hturn hreq, hrefresh, finishStore_of_length_le (by rw [hmoved.freeList, List.length_append]; omega)]
    rfl
  · refine aperture_foldl_of_mem (fun u a => besidesPool_refMember u p a) aperture_refMember_other (members_nodup mask)
      ((mem_members mask a).mpr ha) fun u hu hapu => ?_
    rw [← entry_of_besidesPool hu b.entry] at hcur htime ⊢
    exact aperture_refMember (hapu.trans hap) hcur htime
  · exact aperture_foldl_of_not_mem aperture_refMember_other s fun h => hqa ⟨h.1, (mem_members mask a).mp h.2⟩
  · rw [hmoved.buffer hb, countUpTo_last, countUpTo_last]
    rfl

/-! ### Refusals -/

/-- Settles O37: the member reported is the lowest that fails, by `firstFailure_members_eq_some`. -/
theorem readSetRefusalsNameTheFirstFailingMember : Obligations.ReadSetRefusalsNameTheFirstFailingMember := by
  constructor
  · intro s p c mask locals a st hturn hreq ha hlow hfail
    have hcheck : s.ordCheck p c.answers a = some st := by
      rcases hfail with ⟨hopen, rfl⟩ | ⟨hclosed, hans, rfl⟩ | ⟨hclosed, e, r, hans, hfail⟩
      · exact ordCheck_of_not_closed hopen
      · exact ordCheck_of_no_grant hclosed hans
      · rw [ordCheck_of_grant hclosed hans]
        rcases hfail with ⟨hread, rfl⟩ | ⟨hread, hstate, rfl⟩ | ⟨hread, hstate, rfl⟩
        · rw [if_pos hread]
        · simp [hread, hstate]
        · simp [hread, hstate]
    have hfirst : firstFailure (s.ordCheck p c.answers) (members mask) = some (a, st) :=
      firstFailure_members_eq_some ha (fun b hb hmask => by
        obtain ⟨hclosed, e, r, hans, hread, hstate⟩ := hlow b hb hmask
        exact ordCheck_eq_none hclosed hans hread hstate) hcheck
    rw [exec_ord hturn hreq, ← failedAt_eq, ← finishStore_refuse]
    simp only [State.openRead, hfirst]
  · intro s p c mask a st hturn hreq ha hlow hfail
    have hcheck : s.refCheck p a = some st := by
      rcases hfail with ⟨hclosed, rfl⟩ | ⟨hstages, rfl⟩ | ⟨b, buf, v, t, f, hap, hfail⟩
      · exact refCheck_of_not_reading (by rw [hclosed]; rfl)
      · obtain ⟨b, hb⟩ := Option.ne_none_iff_exists'.mp hstages
        exact refCheck_of_not_reading (pins_of_stages hb)
      · rw [refCheck_of_reading hap]
        rcases hfail with ⟨hgone, rfl⟩ | ⟨hlive, hempty, hgen, rfl⟩
        · rw [if_pos hgone]
        · simp [hlive, hempty, hgen]
    have hfirst : firstFailure (s.refCheck p) (members mask) = some (a, st) :=
      firstFailure_members_eq_some ha (fun m hm hmask => by
        obtain ⟨b, buf, v, t, f, hap, hlive, hstate, hgen⟩ := hlow m hm hmask
        exact refCheck_eq_none hap hlive hstate hgen) hcheck
    rw [exec_ref hturn hreq, ← failedAt_eq, ← finishStore_refuse]
    simp only [State.refresh, hfirst]

end Sys2Proof.Machine
end

section
/-! PROOF. OWR opens its aperture on the head of the free list (O39), or is refused by its first failing check (O40). -/

namespace Sys2Proof.Machine

section
variable {s : State} {p : Port} {a : ApIdx} {l : LocalNo} {zero : Bool} {ans : Answer} {e : EntryId} {r : Rights}

/-! ### The checks of OWR -/

theorem admits_iff (x : Entry) (p : Port) :
    x.admits p = true ↔ x.producer = some (.port p) ∨ x.producer = some .shared := by
  simp [Entry.admits]

/-- Some aperture of the port is a writer with the entry id (R58). -/
theorem any_writesTo_iff (s : State) (p : Port) (e : EntryId) :
    (s.apertures[p]).any (Aperture.writesTo e) = true ↔
      ∃ a, (s.aperture p a).stages ≠ none ∧ (s.aperture p a).binding.map Binding.entry = some e := by
  simp only [Vector.any_eq_true, ← Option.isSome_iff_ne_none, ← writesTo_iff]
  exact ⟨fun ⟨i, hi, h⟩ => ⟨⟨i, hi⟩, h⟩, fun ⟨i, h⟩ => ⟨i.val, i.isLt, h⟩⟩

theorem owrCheck_of_not_closed (h : s.aperture p a ≠ .closed) : s.owrCheck p a ans = some .apertureState := if_pos h

theorem owrCheck_of_no_grant (h : s.aperture p a = .closed) : s.owrCheck p a none = some .noGrant := by
  simp only [State.owrCheck, h, ne_eq, not_true_eq_false, if_false]

theorem owrCheck_of_grant (h : s.aperture p a = .closed) :
    s.owrCheck p a (some (e, r)) =
      if r.write = false then some .noRight
      else if (s.entry e).state = .undefined then some .undefined
      else if (s.entry e).admits p = false then some .notProducer
      else if (s.apertures[p]).any (Aperture.writesTo e) = true then some .duplicate
      else if s.freeList = [] then some .noBuffer
      else none := by
  simp only [State.owrCheck, h, ne_eq, not_true_eq_false, if_false, Bool.not_eq_eq_eq_not, Bool.not_true]

/-- An OWR that fails a check changes nothing (R58). -/
theorem openWrite_of_owrCheck {st : Status} (h : s.owrCheck p a ans = some st) : s.openWrite p l a zero ans = s.refuse st := by
  simp only [State.openWrite, h]

theorem exec_owr_refused {c : Pending} (hturn : s.storeTurn p c) (hreq : c.req = .owr l a zero) {st : Status}
    (h : s.owrCheck p a c.answers[0] = some st) :
    exec (.owr p) s = .next (s.refusedWith p st (Vector.replicate 10 0)) := by
  rw [exec_owr hturn hreq, openWrite_of_owrCheck h, finishStore_refuse]
  rfl

/-! ### The fill -/

/-- What an OWR's fill writes (R31, R32). -/
theorem fillFor_eq (s : State) (zero : Bool) (x : Entry) (w : WordIdx) :
    s.fillFor zero x w =
      match zero, x.current with
      | false, some old => if w.val < x.length.val then s.mem.readWord old w else 0
      | _, _ => 0 := by
  cases zero with
  | true => cases x.current <;> rfl
  | false => cases hcur : x.current <;> simp only [State.fillFor, hcur] <;> rfl

end

/-- Settles O39: all seven checks pass, and the aperture is set on the buffer allocated. -/
theorem openWriteStagesAFilledBuffer : Obligations.OpenWriteStagesAFilledBuffer := by
  intro s p c l a zero e r buf rest hmem hturn hreq hclosed hans hwrite hdef hproducer halone hfree
  have hadmits : (s.entry e).admits p = true := (admits_iff _ p).mpr hproducer
  have hsingle : ¬(s.apertures[p]).any (Aperture.writesTo e) = true := fun h =>
    let ⟨c, hst, hbind⟩ := (any_writesTo_iff s p e).mp h
    halone c hst hbind
  have hcheck : s.owrCheck p a (some (e, r)) = none := by
    simp only [owrCheck_of_grant hclosed, hwrite, hadmits, hdef, hsingle, hfree]
    rfl
  obtain ⟨u, hu⟩ : ∃ u, s.allocate p a (s.fillFor zero (s.entry e)) = some (buf, u) :=
    ⟨_, (allocate_eq_some ..).mpr ⟨rest, hfree, rfl⟩⟩
  have hallocated := allocated_of_allocate hu
  have hrest : u.freeList = rest := (List.cons.inj (hallocated.freeList.symm.trans hfree)).2
  have hbeside : u.besidesPool = s.besidesPool := by
    obtain ⟨_, -, rfl⟩ := (allocate_eq_some ..).mp hu
    rfl
  refine ⟨u.setAperture p a (.writing
    { localNo := l, entry := e, generation := (s.entry e).generation, length := (s.entry e).length } buf (s.entry e).version),
    ?_, hrest, fun b => ?_, fun q i => ?_, ?_, fun b w => ?_, ?_⟩
  · rw [exec_owr hturn hreq, hans]
    simp only [State.openWrite, hcheck, hu]
    rfl
  · rw [State.setAperture_buffer, hallocated.buffer]
    simp only [eq_comm]
  · rw [State.aperture_setAperture, hallocated.aperture]
    simp only [eq_comm]
  · rw [State.setAperture_mem, hallocated.mem]
    exact Memory.fill_wf s.mem hmem buf _
  · rw [State.setAperture_mem, hallocated.mem, Memory.readWord_fill s.mem hmem]
    exact if_congr Iff.rfl (fillFor_eq s zero (s.entry e) w) rfl
  · exact eq_with_pool_of_besidesPool ((besidesPool_setAperture u p a _).trans hbeside)

/-- Settles O40: each check of `State.owrCheck` behind those that pass. -/
theorem openWriteRefusalNamesTheFirstFailedCheck : Obligations.OpenWriteRefusalNamesTheFirstFailedCheck := by
  intro s p c l a zero hturn hreq
  have hrefused := fun st => exec_owr_refused (st := st) hturn hreq
  refine ⟨fun hopen => hrefused _ (owrCheck_of_not_closed hopen), fun hclosed => ⟨fun hans => ?_, fun e r hans => ?_⟩⟩
  · rw [hans] at hrefused
    exact hrefused _ (owrCheck_of_no_grant hclosed)
  · rw [hans, owrCheck_of_grant hclosed] at hrefused
    refine ⟨fun hwrite => hrefused _ (if_pos hwrite), fun hwrite hundef => hrefused _ (by simp [hwrite, hundef]),
      fun hwrite hdef => ⟨fun ⟨hport, hshared⟩ => hrefused _ ?_, fun hproducer => ⟨fun hwriter => hrefused _ ?_,
        fun halone hfree => hrefused _ ?_⟩⟩⟩
    · have hadmits := mt (admits_iff (s.entry e) p).mp (not_or.mpr ⟨hport, hshared⟩)
      simp [hwrite, hdef, hadmits]
    · simp only [hwrite, hdef, (admits_iff (s.entry e) p).mpr hproducer, (any_writesTo_iff s p e).mpr hwriter]
      rfl
    · have hsingle : ¬(s.apertures[p]).any (Aperture.writesTo e) = true := fun h =>
        let ⟨c, hst, hbind⟩ := (any_writesTo_iff s p e).mp h
        halone c hst hbind
      simp only [hwrite, hdef, (admits_iff (s.entry e) p).mpr hproducer, hsingle, hfree]
      rfl

end Sys2Proof.Machine
end

section
/-! PROOF. What the host reads of its window (O29), and what a write of a data word does (O26, O27). -/

namespace Sys2Proof.Machine

/-! ### The window map -/

/-- The map names every word at its offset (Table 10-1). -/
theorem windowWord_of_offset {x : WindowWord} {o : Offset} (h : x.offset = some o) : windowWord o = x := by
  cases x with
  | command | status | latch | mask | force | session | faultRecord | take => cases h; rfl
  | unused => cases h
  | param i => cases h; revert i; decide
  | result i => cases h; revert i; decide
  | head i => cases h; revert i; decide
  | apStatus a i => cases h; revert a i; decide
  | apData a w => cases h; revert a w; decide

/-- The offsets between and behind the words of Table 10-1. -/
theorem windowWord_eq_unused {o : Offset} (h : 0x014 < o.toNat ∧ o.toNat < 0x020 ∨ 0x026 < o.toNat ∧ o.toNat < 0x040 ∨
    0x05F < o.toNat ∧ o.toNat < 0x080 ∨ 0x0FF < o.toNat) : windowWord o = .unused := by
  unfold windowWord
  dsimp only
  generalize o.toNat = n at h ⊢
  rcases h with h | h | h | h <;> simp (disch := omega) only [if_neg, if_pos]

section
variable {s : State} {p : Port}

/-- Outside OFFLINE the host reads the word that the map names (R149). -/
theorem hostRead_of_offset (h : (s.port p).session ≠ .offline) (x : WindowWord) {o : Offset} (hx : x.offset = some o) :
    s.hostRead p o = s.readWindowWord p x := by
  rw [State.hostRead, if_neg h, windowWord_of_offset hx]

theorem hostRead_apData (h : (s.port p).session ≠ .offline) (a : ApIdx) (w : WordIdx) :
    s.hostRead p (BitVec.ofNat 10 (0x080 + 16 * a.val + w.val)) = s.dataWord (s.aperture p a) w :=
  hostRead_of_offset h (.apData a w) rfl

end

/-! ### The words of the window as numbers -/

/-- Fields side by side, as one number. -/
theorem toNat_append_eq {m n : Nat} (x : BitVec m) (y : BitVec n) : (x ++ y).toNat = x.toNat * 2 ^ n + y.toNat := by
  rw [BitVec.toNat_append, ← Nat.shiftLeft_add_eq_or_of_lt y.isLt, Nat.shiftLeft_eq]

theorem toNat_timeHigh_field (t : Time) : (t.extractLsb' 32 16).toNat = t.toNat / 4294967296 := by
  have := t.isLt
  rw [BitVec.extractLsb'_toNat, Nat.shiftRight_eq_div_pow]
  omega

theorem timeHigh_eq_ofNat (t : Time) : timeHigh t = BitVec.ofNat 32 (t.toNat / 4294967296) := by
  have := t.isLt
  apply BitVec.eq_of_toNat_eq
  rw [timeHigh, toNat_append_eq, toNat_timeHigh_field, BitVec.toNat_ofNat]
  simp
  omega

/-- Status word 0 of an open aperture (Table 10-6). -/
theorem apStatus0_eq (state : BitVec 2) (f : ReadFlags) (length : Fin 17) (t : Time) :
    apStatus0 state f length t = BitVec.ofNat 32 (state.toNat + 16 * f.updated.toNat + 32 * f.stale.toNat +
      64 * f.gone.toNat + 256 * length.val + 65536 * (t.toNat / 4294967296)) := by
  have := t.isLt
  have := state.isLt
  have := f.updated.toNat_lt
  have := f.stale.toNat_lt
  have := f.gone.toNat_lt
  apply BitVec.eq_of_toNat_eq
  simp only [apStatus0, toNat_append_eq, toNat_timeHigh_field, BitVec.toNat_ofNat, BitVec.toNat_ofBool]
  omega

theorem apStatus1_eq (bind : Binding) (buf : BufId) :
    apStatus1 bind buf = BitVec.ofNat 32 (bind.localNo.toNat + 4096 * bind.entry.val + 2097152 * buf.val) := by
  have := bind.localNo.isLt
  apply BitVec.eq_of_toNat_eq
  simp only [apStatus1, toNat_append_eq, BitVec.toNat_ofNat]
  omega

/-- A port's place in the wait list of a legal claim (R138). -/
theorem State.ClaimOk.waitPlace_lt {s : State} (h : s.ClaimOk) (p : Port) : s.waitPlace p < 4 := by
  unfold State.waitPlace
  split <;> rename_i hp
  · cases hholder : s.holder with
    | none => rw [h.emptyWhenFree hholder] at hp; cases hp
    | some q =>
      have hnodup : (q :: s.waiters).Nodup := List.nodup_cons.mpr ⟨h.holderOutside q hholder, h.nodup⟩
      have hlen := hnodup.length_le_card
      have hidx := List.idxOf_lt_length_of_mem hp
      simp only [List.length_cons, Fintype.card_fin] at hlen
      omega
  · omega

theorem toNat_sessionCode (k : Session) :
    k.code.toNat = match k with | .offline => 0 | .unattached => 1 | .attached => 2 | .teardown _ => 3 := by
  cases k <;> rfl

theorem sessionWord_eq {s : State} {p : Port} (h : s.waitPlace p < 4) :
    s.sessionWord p = BitVec.ofNat 32
      ((match (s.port p).session with | .offline => 0 | .unattached => 1 | .attached => 2 | .teardown _ => 3) +
        256 * (decide (s.holder = some p)).toNat +
      65536 * s.waitPlace p + 16777216 * p.val) := by
  rw [← toNat_sessionCode]
  have := (s.port p).session.code.isLt
  have := (decide (s.holder = some p)).toNat_lt
  apply BitVec.eq_of_toNat_eq
  simp only [State.sessionWord, toNat_append_eq, BitVec.toNat_ofNat, BitVec.toNat_ofBool]
  omega

theorem toNat_faultCode (c : Option FaultCode) :
    (FaultCode.code c).toNat =
      match c with | none => 0 | some .commandOverrun => 1 | some .writeToRead => 2 | some .writeInFlight => 3 := by
  rcases c with _ | _ | _ | _ <;> rfl

theorem toNat_recordKindCode (k : RecordKind) :
    k.code.toNat = match k with
      | .published => 1 | .stale => 2 | .withdrawn => 3 | .defined => 4 | .portAttached => 5 | .portDetached => 6
      | .claimMoved => 7 | .mark => 8 := by
  cases k <;> rfl

/-- The fault record word (R173). -/
theorem faultWord_eq (f : FaultRecord) :
    f.word = BitVec.ofNat 32
      ((match f.code with
          | none => 0 | some .commandOverrun => 1 | some .writeToRead => 2 | some .writeInFlight => 3) +
        256 * (match f.aperture with | none => 255 | some a => a.val) + 65536 * f.later.toNat) := by
  rw [← toNat_faultCode]
  obtain ⟨code, aperture, later⟩ := f
  have := later.isLt
  have := (FaultCode.code code).isLt
  apply BitVec.eq_of_toNat_eq
  cases aperture with
  | none =>
    rw [FaultRecord.word, toNat_append_eq, toNat_append_eq, toNat_append_eq, BitVec.toNat_ofNat]
    simp
    omega
  | some a =>
    rw [FaultRecord.word, toNat_append_eq, toNat_append_eq, toNat_append_eq, BitVec.toNat_ofNat]
    simp
    omega

theorem statusWord_eq (pi : PortIf) :
    pi.statusWord = BitVec.ofNat 32 (if pi.slot = none then pi.status.code.toNat else 1) := by
  have hzero : ∀ x : Byte, (0#24 ++ x : Word) = BitVec.ofNat 32 x.toNat := fun x => by
    apply BitVec.eq_of_toNat_eq
    rw [toNat_append_eq, BitVec.toNat_ofNat]
    simp
    omega
  rw [PortIf.statusWord, hzero]
  cases pi.slot <;> rfl

/-- The latch and mask words hold their bits in bits 0 to 6 (Table 10-7). -/
theorem latchWord_eq (x : BitVec 7) : (0#25 ++ x : Word) = BitVec.ofNat 32 x.toNat := by
  have := x.isLt
  apply BitVec.eq_of_toNat_eq
  rw [toNat_append_eq, BitVec.toNat_ofNat]
  simp
  omega

/-! #### The ring head words (Table 10-8) -/

theorem headWord_five (r : Ring) : r.headWord 5 = BitVec.ofNat 32 r.lost.toNat := by
  apply BitVec.eq_of_toNat_eq
  simp [Ring.headWord, zero_append_eq_setWidth]

theorem headWord_of_nil {r : Ring} (h : r.records = []) {i : Fin 6} (hi : i ≠ 5) : r.headWord i = 0 := by
  fin_cases i <;> simp_all [Ring.headWord]

section
variable {r : Ring} {x : Record} {rest : List Record}

theorem headWord_zero (h : r.records = x :: rest) :
    r.headWord 0 = BitVec.ofNat 32 (x.seq.toNat + 65536 *
      (match x.kind with
        | .published => 1 | .stale => 2 | .withdrawn => 3 | .defined => 4 | .portAttached => 5 | .portDetached => 6
        | .claimMoved => 7 | .mark => 8) + 16777216 * x.merged.toNat) := by
  have : r.headWord 0 = x.merged ++ x.kind.code ++ x.seq := by simp [Ring.headWord, h]
  rw [this, append_bytes, toNat_recordKindCode]

theorem headWord_one (h : r.records = x :: rest) (hrest : rest.length < 64) :
    r.headWord 1 = BitVec.ofNat 32 ((match x.localNo with | none => 0 | some l => l.toNat) +
      65536 * (match x.origin with | none => 255 | some q => q.val) + 16777216 * (rest.length + 1)) := by
  have hword : r.headWord 1 = BitVec.ofNat 8 (rest.length + 1) ++ portCode x.origin ++ 0#4 ++ x.localNo.getD 0 := by
    simp [Ring.headWord, h]
  have hlocal : (match x.localNo with | none => 0 | some l => l.toNat) = (x.localNo.getD 0).toNat := by
    cases x.localNo <;> rfl
  have horigin : (match x.origin with | none => 255 | some q => q.val) = (portCode x.origin).toNat :=
    (toNat_portCode x.origin).symm
  have hfits : (rest.length + 1) % 2 ^ 8 = rest.length + 1 := Nat.mod_eq_of_lt (by omega)
  rw [hlocal, horigin]
  have := (x.localNo.getD 0).isLt
  have := (portCode x.origin).isLt
  apply BitVec.eq_of_toNat_eq
  simp only [hword, toNat_append_eq, BitVec.toNat_ofNat, hfits]
  omega

end

/-! ### Host reads -/

/-- Settles O29: each offset by `hostRead_of_offset`, each word by its layout as a number. -/
theorem windowReadsShowTheRecords : Obligations.WindowReadsShowTheRecords := by
  refine ⟨fun s p hsession => ?_, fun s p hsession => ?_, fun s p hsession => ?_⟩
  · refine ⟨fun a w => ?_, fun a i => ?_, ?_, fun hclaim => ?_, ?_⟩
    · rw [hostRead_apData hsession]
      cases s.aperture p a <;> rfl
    · refine (hostRead_of_offset hsession (.apStatus a i) rfl).trans ?_
      rw [State.readWindowWord]
      cases s.aperture p a with
      | closed => rfl
      | reading bind buf v t f =>
        fin_cases i
        · exact apStatus0_eq 1 f bind.length t
        · exact apStatus1_eq bind buf
        · rfl
        · exact timeLow_eq_setWidth t
      | writing bind buf v =>
        fin_cases i
        · exact (apStatus0_eq 2 .clear bind.length 0).trans (by simp [ReadFlags.clear])
        · exact apStatus1_eq bind buf
        · rfl
        · rfl
      | orphaned bind buf v =>
        fin_cases i
        · exact (apStatus0_eq 3 .clear bind.length 0).trans (by simp [ReadFlags.clear])
        · exact apStatus1_eq bind buf
        · rfl
        · rfl
    · exact (hostRead_of_offset hsession .status rfl).trans (statusWord_eq _)
    · exact (hostRead_of_offset hsession .session rfl).trans (sessionWord_eq (hclaim.waitPlace_lt p))
    · exact (hostRead_of_offset hsession .faultRecord rfl).trans (faultWord_eq _)
  · refine ⟨hostRead_of_offset hsession .command rfl, fun i => hostRead_of_offset hsession (.param i) rfl,
      fun i => hostRead_of_offset hsession (.result i) rfl, ?_, ?_, hostRead_of_offset hsession .force rfl,
      hostRead_of_offset hsession .take rfl, fun o ho => ?_⟩
    · exact (hostRead_of_offset hsession .latch rfl).trans (latchWord_eq _)
    · exact (hostRead_of_offset hsession .mask rfl).trans (latchWord_eq _)
    · rw [State.hostRead, if_neg hsession, windowWord_eq_unused ho, State.readWindowWord]
  · have hhead : ∀ i : Fin 6, s.hostRead p (BitVec.ofNat 10 (0x020 + i.val)) = (s.ring p).headWord i :=
      fun i => hostRead_of_offset hsession (.head i) rfl
    refine ⟨(hhead 5).trans (headWord_five _), fun hnil => ?_, fun x rest hrec hrest => ?_⟩
    · have hzero : ∀ i : Fin 6, i ≠ 5 → s.hostRead p (BitVec.ofNat 10 (0x020 + i.val)) = 0 :=
        fun i hi => (hhead i).trans (headWord_of_nil hnil hi)
      exact ⟨hzero 0 (by decide), hzero 1 (by decide), hzero 2 (by decide), hzero 3 (by decide), hzero 4 (by decide)⟩
    · refine ⟨(hhead 0).trans ?_, (hhead 1).trans ?_, (hhead 2).trans ?_, (hhead 3).trans ?_, (hhead 4).trans ?_⟩
      · exact headWord_zero hrec
      · exact headWord_one hrec hrest
      · simp [Ring.headWord, hrec]
      · simp [Ring.headWord, hrec, timeLow_eq_setWidth]
      · simp [Ring.headWord, hrec, timeHigh_eq_ofNat]

/-! ### Writes of a data word -/

section
variable {s : State} {p : Port} {a : ApIdx}

/-- A write through a writer that nothing closes to the host (R64). -/
theorem writeData_of_stages (hsession : (s.port p).session ≠ .offline) (hopen : (s.port p).inFlight a = false) {b : Binding}
    {buf : BufId} {base : Version} (hap : s.aperture p a = .writing b buf base ∨ s.aperture p a = .orphaned b buf base)
    (w : WordIdx) (v : Word) :
    s.writeData p a w v = if w.val < b.length.val then { s with mem := s.mem.writeWord buf w v } else s := by
  rcases hap with hap | hap <;>
    simp only [State.writeData, if_neg hsession, hopen, Bool.false_eq_true, if_false, hap]

theorem dataWord_of_stages {b : Binding} {buf : BufId} {base : Version}
    (hap : s.aperture p a = .writing b buf base ∨ s.aperture p a = .orphaned b buf base) {w : WordIdx}
    (hw : w.val < b.length.val) : s.dataWord (s.aperture p a) w = s.mem.readWord buf w := by
  rcases hap with hap | hap <;> simp only [State.dataWord, hap, if_pos hw]

theorem writeInFlight_iff (r : Request) (a : ApIdx) :
    r.writeInFlight.getLsbD a = true ↔
      (∃ mask cond retain, r = .pub mask cond retain ∧ mask.getLsbD a = true) ∨
        ∃ mask, r = .cls mask ∧ mask.getLsbD a = true := by
  cases r with
  | pub mask cond retain =>
    refine ⟨fun h => .inl ⟨mask, cond, retain, rfl, h⟩, ?_⟩
    rintro (⟨_, _, _, ⟨⟩, h⟩ | ⟨_, ⟨⟩, _⟩)
    exact h
  | cls mask =>
    refine ⟨fun h => .inr ⟨mask, rfl, h⟩, ?_⟩
    rintro (⟨_, _, _, ⟨⟩, _⟩ | ⟨_, ⟨⟩, h⟩)
    exact h
  | _ => simp [Request.writeInFlight]

/-- A PUB or a CLS in the slot closes its members to data writes (R66). -/
theorem inFlight_iff (pi : PortIf) (a : ApIdx) :
    pi.inFlight a = true ↔ ∃ c, pi.slot = some c ∧
      ((∃ mask cond retain, c.req = .pub mask cond retain ∧ mask.getLsbD a = true) ∨
        ∃ mask, c.req = .cls mask ∧ mask.getLsbD a = true) := by
  unfold PortIf.inFlight
  cases pi.slot with
  | none => simp
  | some c => simp only [writeInFlight_iff, Option.some.injEq, exists_eq_left']

theorem writeData_of_inFlight (hsession : (s.port p).session ≠ .offline) (h : (s.port p).inFlight a = true) (w : WordIdx)
    (v : Word) : s.writeData p a w v = s.setPort p ((s.port p).latchFault .writeInFlight (some a)) := by
  simp only [State.writeData, if_neg hsession, h, if_true]

theorem writeData_of_not_stages (hsession : (s.port p).session ≠ .offline) (hopen : (s.port p).inFlight a = false)
    (hst : (s.aperture p a).stages = none) (w : WordIdx) (v : Word) :
    s.writeData p a w v = s.setPort p ((s.port p).latchFault .writeToRead (some a)) := by
  cases hap : s.aperture p a with
  | closed | reading => simp only [State.writeData, if_neg hsession, hopen, Bool.false_eq_true, if_false, hap]
  | writing | orphaned => rw [hap] at hst; cases hst

/-- A fault latched: the first one in an empty record, a later one in the count (R165). -/
theorem latchFault_eq (pi : PortIf) (code : FaultCode) (a : Option ApIdx) :
    pi.latchFault code a = { pi with
      latch := pi.latch ||| bitFault
      fault :=
        if pi.fault.code = none then { code := some code, aperture := a, later := 0 }
        else { pi.fault with later := if pi.fault.later = 0xFF then 0xFF else pi.fault.later + 1 } } := by
  have hsat : saturatingSucc pi.fault.later = if pi.fault.later = 0xFF then 0xFF else pi.fault.later + 1 := by
    have hall : BitVec.allOnes 8 = 0xFF := by decide
    rw [saturatingSucc, hall]
    exact ite_congr rfl id fun _ => rfl
  cases hcode : pi.fault.code <;> simp [PortIf.latchFault, PortIf.setLatch, hcode, hsat]

end

/-- Settles O26: the write is `Memory.writeWord` below the length and nothing beyond it. -/
theorem dataWriteStoresIntoTheStagedBuffer : Obligations.DataWriteStoresIntoTheStagedBuffer := by
  intro s p a w v b buf base hmem hsession hopen hap
  have hwrite : exec (.dataWordWrite p a w v) s =
      .next (if w.val < b.length.val then { s with mem := s.mem.writeWord buf w v } else s) :=
    congrArg _ (writeData_of_stages hsession hopen hap w v)
  refine ⟨fun hw => ?_, fun hw => by rw [hwrite, if_neg (by omega)]⟩
  rw [hwrite, if_pos hw]
  have hwords := Memory.readWord_writeWord s.mem hmem buf w v
  refine ⟨_, rfl, Memory.writeWord_wf s.mem hmem buf w v, hwords, ?_, rfl⟩
  rw [hostRead_apData (by exact hsession), dataWord_of_stages (s := { s with mem := s.mem.writeWord buf w v }) hap hw]
  exact (hwords buf w).trans (if_pos ⟨rfl, rfl⟩)

/-- Settles O27: the two faults, by `latchFault_eq`. -/
theorem dataWriteFaultsAreLatched : Obligations.DataWriteFaultsAreLatched := by
  intro s p a hsession
  refine ⟨inFlight_iff _ a, fun w v code hfault => ?_⟩
  rcases hfault with ⟨hflight, rfl⟩ | ⟨hopen, hst, rfl⟩
  · exact congrArg _ ((writeData_of_inFlight hsession hflight w v).trans (congrArg _ (latchFault_eq _ _ _)))
  · exact congrArg _ ((writeData_of_not_stages hsession hopen hst w v).trans (congrArg _ (latchFault_eq _ _ _)))

end Sys2Proof.Machine
end

section
/-! PROOF. PUB is refused by its first failing member, or by the first one without a buffer for RETAIN (O43). -/

namespace Sys2Proof.Machine

section
variable {s : State} {p : Port} {a : ApIdx} {mask : Byte} {conditional retain : Bool} {ans : Vector Answer 8} {bind : Binding}
  {buf : BufId} {base : Version} {c : Pending}

theorem exec_pub (h : s.storeTurn p c) (hreq : c.req = .pub mask conditional retain) :
    exec (.pub p) s = .next (s.finishStore p (s.publish p mask conditional retain c.answers)) := by
  obtain ⟨req, stage, locals, answers⟩ := c
  subst hreq
  simp only [exec, execPub, (storeCommand_eq_some s p _).mpr h]

/-! ### The checks of PUB -/

theorem rightToPublish_iff (ans : Answer) (e : EntryId) :
    rightToPublish ans e = true ↔ ∃ r, ans = some (e, r) ∧ r.write = true := by
  cases ans with
  | none => simp [rightToPublish]
  | some er =>
    obtain ⟨g, r⟩ := er
    simp [rightToPublish]

theorem pubCheck_of_orphaned (h : s.aperture p a = .orphaned bind buf base) :
    s.pubCheck p conditional ans a = some .entryGone := by
  simp only [State.pubCheck, h]

theorem pubCheck_of_not_stages (h : (s.aperture p a).stages = none) :
    s.pubCheck p conditional ans a = some .apertureState := by
  unfold State.pubCheck
  split
  · rename_i hap; rw [hap] at h; cases h
  · rfl
  · rfl
  · rename_i hap; rw [hap] at h; cases h

/-- The checks of a WRITING member in their order (R71). -/
theorem pubCheck_of_writing (h : s.aperture p a = .writing bind buf base) :
    s.pubCheck p conditional ans a =
      if ¬rightToPublish ans[a] bind.entry = true then some .revoked
      else if (s.entry bind.entry).state = .undefined ∨ (s.entry bind.entry).generation ≠ bind.generation then some .entryGone
      else if conditional = true ∧ (s.entry bind.entry).version ≠ base then some .conflict
      else none := by
  simp only [State.pubCheck, h, Bool.not_eq_true', Bool.not_eq_true]

theorem pubCheck_eq_none (h : s.aperture p a = .writing bind buf base)
    (hright : rightToPublish ans[a] bind.entry = true) (hdef : (s.entry bind.entry).state ≠ .undefined)
    (hgen : (s.entry bind.entry).generation = bind.generation)
    (hbase : conditional = true → (s.entry bind.entry).version = base) : s.pubCheck p conditional ans a = none := by
  rw [pubCheck_of_writing h, if_neg (not_not.mpr hright), if_neg (by simp [hdef, hgen]), if_neg fun hc => hc.2 (hbase hc.1)]

/-- A member's place in the set is the number of members up to it. -/
theorem members_getElem?_countUpTo (ha : mask.getLsbD a = true) :
    (members mask)[countUpTo mask a (fun _ => true) - 1]? = some a := by
  obtain ⟨done, rest, hm, -⟩ := members_split ha
  rw [countUpTo_of_members_eq hm, hm]
  simp

theorem publish_of_failing {st : Status} (h : firstFailure (s.pubCheck p conditional ans) (members mask) = some (a, st)) :
    s.publish p mask conditional retain ans = s.refuse st (failedAt a) := by
  simp only [State.publish, h]

theorem publish_of_no_buffer (h : firstFailure (s.pubCheck p conditional ans) (members mask) = none)
    (hroom : (members mask)[s.freeList.length]? = some a) :
    s.publish p mask conditional true ans = s.refuse .noBuffer (failedAt a) := by
  simp only [State.publish, h, if_true, hroom]

theorem publish_of_accepted (h : firstFailure (s.pubCheck p conditional ans) (members mask) = none)
    (hroom : retain = true → (members mask).length ≤ s.freeList.length) :
    s.publish p mask conditional retain ans =
      ((members mask).foldl (fun s a => s.publishMember p retain a) s, .ok, s.pubResults p mask) := by
  have hbuffers : (if retain then (members mask)[s.freeList.length]? else none) = none := by
    split
    · rename_i hr; exact List.getElem?_eq_none_iff.mpr (hroom hr)
    · rfl
  simp only [State.publish, h, hbuffers]

end

/-- Settles O43: the failing member is the lowest by `firstFailure_members_eq_some`, and the member without a buffer is the one
behind as many as the free list has buffers. -/
theorem publishRefusalChangesNothing : Obligations.PublishRefusalChangesNothing := by
  intro s p c mask conditional retain a st hturn hreq ha hfail
  rw [exec_pub hturn hreq, ← failedAt_eq, ← finishStore_refuse]
  congr 2
  rcases hfail with ⟨hlow, hfail⟩ | ⟨rfl, rfl, hcount, hpass⟩
  · have hcheck : s.pubCheck p conditional c.answers a = some st := by
      rcases hfail with ⟨⟨b, buf, base, hap⟩, rfl⟩ | ⟨hstages, rfl⟩ | ⟨b, buf, base, hap, hfail⟩
      · exact pubCheck_of_orphaned hap
      · exact pubCheck_of_not_stages hstages
      · rw [pubCheck_of_writing hap]
        rcases hfail with ⟨hrevoked, rfl⟩ | ⟨hright, ⟨hgone, rfl⟩ | ⟨hdef, hgen, hcond, hver, rfl⟩⟩
        · rw [if_pos (mt (rightToPublish_iff _ _).mp hrevoked)]
        · rw [if_neg (not_not.mpr ((rightToPublish_iff _ _).mpr hright)), if_pos hgone]
        · rw [if_neg (not_not.mpr ((rightToPublish_iff _ _).mpr hright)), if_neg (by simp [hdef, hgen]), if_pos ⟨hcond, hver⟩]
    refine publish_of_failing (firstFailure_members_eq_some ha (fun m hm hmask => ?_) hcheck)
    obtain ⟨b, buf, base, r, hap, hans, hwrite, hdef, hgen, hbase⟩ := hlow m hm hmask
    exact pubCheck_eq_none hap ((rightToPublish_iff _ _).mpr ⟨r, hans, hwrite⟩) hdef hgen hbase
  · refine publish_of_no_buffer (firstFailure_members_eq_none fun m hmask => ?_) ?_
    · obtain ⟨b, buf, base, r, hap, hans, hwrite, hdef, hgen, hbase⟩ := hpass m hmask
      exact pubCheck_eq_none hap ((rightToPublish_iff _ _).mpr ⟨r, hans, hwrite⟩) hdef hgen hbase
    · have hplace := members_getElem?_countUpTo ha
      rwa [hcount, Nat.add_sub_cancel] at hplace

end Sys2Proof.Machine
end

section
/-! SUPPORT. The publication of one member of a PUB, record by record (R33, R34, R76 to R80). -/

namespace Sys2Proof.Machine

/-! ### The buffer that leaves an entry -/

/-- The record of a buffer that has left its entry (R34). -/
def BufRec.left (r : BufRec) : BufRec :=
  if r.holds = 0 then { state := .free, holds := 0 } else { state := .retired, holds := r.holds }

section
variable {s : State} {p : Port} {a : ApIdx} {bind : Binding} {buf : BufId} {base : Version} {e : EntryId}

theorem buffer_retireBuffer (s : State) (b x : BufId) :
    (s.retireBuffer b).buffer x = if b = x then (s.buffer b).left else s.buffer x := by
  rcases retireBuffer_cases s b with ⟨hheld, h⟩ | ⟨hunheld, h⟩ <;> rw [h]
  · simp [BufRec.left, hheld.ne']
  · simp [BufRec.left, hunheld]

theorem freeList_retireBuffer (s : State) (b : BufId) :
    (s.retireBuffer b).freeList = s.freeList ++ if (s.buffer b).holds = 0 then [b] else [] := by
  rcases retireBuffer_cases s b with ⟨hheld, h⟩ | ⟨hunheld, h⟩ <;> rw [h]
  · simp [hheld.ne']
  · simp [hunheld]

theorem buffer_leaveCurrent (s : State) (e : EntryId) (x : BufId) :
    (s.leaveCurrent e).buffer x = if (s.entry e).current = some x then (s.buffer x).left else s.buffer x := by
  cases hcur : (s.entry e).current with
  | none => rw [leaveCurrent_of_none hcur]; simp
  | some b =>
    rw [leaveCurrent_of_some hcur, buffer_retireBuffer]
    by_cases hbx : b = x <;> simp [hbx]

theorem freeList_leaveCurrent (s : State) (e : EntryId) :
    (s.leaveCurrent e).freeList =
      s.freeList ++ ((s.entry e).current.filter fun b => decide ((s.buffer b).holds = 0)).toList := by
  cases hcur : (s.entry e).current with
  | none => rw [leaveCurrent_of_none hcur]; simp
  | some b =>
    rw [leaveCurrent_of_some hcur, freeList_retireBuffer]
    by_cases hunheld : (s.buffer b).holds = 0 <;> simp [Option.filter, hunheld]

/-! ### The staged buffer that becomes current -/

theorem publishedBy_of_writing (h : s.aperture p a = .writing bind buf base) : s.publishedBy p a = some bind.entry := by
  simp only [State.publishedBy, h]

theorem replacedBy_of_writing (h : s.aperture p a = .writing bind buf base) :
    s.replacedBy p a = (s.entry bind.entry).current := by
  simp only [State.replacedBy, publishedBy_of_writing h, Option.bind_some]

theorem buffer_makeCurrent (s : State) (p : Port) (bind : Binding) (buf x : BufId) :
    (s.makeCurrent p bind buf).buffer x =
      if buf = x then { state := .current bind.entry, holds := 0 }
      else if (s.entry bind.entry).current = some x then (s.buffer x).left
      else s.buffer x := by
  rw [← buffer_leaveCurrent, ← State.buffer_setBuffer, makeCurrent_eq]
  rfl

theorem freeList_makeCurrent_of_writing (h : s.aperture p a = .writing bind buf base) :
    (s.makeCurrent p bind buf).freeList = s.freeList ++ (s.freedByPublish p a).toList := by
  rw [State.freedByPublish, replacedBy_of_writing h, ← freeList_leaveCurrent, makeCurrent_eq]
  rfl

@[simp] theorem length_published (x : Entry) (p : Port) (buf : BufId) (now : Time) :
    (x.published p buf now).length = x.length := rfl

/-- The report of the publication of an entry at this state's turn (R78). -/
def State.publishedReport (s : State) (p : Port) (e : EntryId) : NuItem :=
  .entry { kind := .published, entry := e, version := (s.entry e).version + 1, time := s.timeBase, origin := some p }

theorem nuInput_makeCurrent (s : State) (p : Port) (bind : Binding) (buf : BufId) :
    (s.makeCurrent p bind buf).nuInput = s.nuInput ++ [s.publishedReport p bind.entry] := by
  rw [makeCurrent_eq, leaveCurrent_frame]
  rfl

/-! ### The fields beside a publication -/

/-- The state with everything blanked out that a PUB may change: equal states of this kind agree in every other field. -/
def State.besidesPublication (s : State) : State := { s.besidesPool with catalog := State.reset.catalog, nuInput := [] }

theorem besidesPublication_of_besidesPool {t : State} (h : t.besidesPool = s.besidesPool) :
    t.besidesPublication = s.besidesPublication := by
  unfold State.besidesPublication
  rw [h]

theorem besidesPublication_publishMember (s : State) (p : Port) (retain : Bool) (a : ApIdx) :
    (s.publishMember p retain a).besidesPublication = s.besidesPublication := by
  unfold State.publishMember
  split
  · rw [besidesPublication_of_besidesPool (besidesPool_endMember ..), makeCurrent_eq, leaveCurrent_frame]
    rfl
  · rfl

/-- States that agree beside a publication differ in what it may change at most. -/
theorem eq_with_published_of_besidesPublication {t : State} (h : t.besidesPublication = s.besidesPublication) :
    t = { s with
      catalog := t.catalog, buffers := t.buffers, freeList := t.freeList, apertures := t.apertures, mem := t.mem,
      nuInput := t.nuInput } := by
  calc t = { t.besidesPublication with
      catalog := t.catalog, buffers := t.buffers, freeList := t.freeList, apertures := t.apertures, mem := t.mem,
      nuInput := t.nuInput } := rfl
    _ = { s.besidesPublication with
      catalog := t.catalog, buffers := t.buffers, freeList := t.freeList, apertures := t.apertures, mem := t.mem,
      nuInput := t.nuInput } := by rw [h]
    _ = _ := rfl

/-! ### One member -/

/-- What the publication of member `a`, which stages `buf`, makes of each record; `reopened` is the buffer taken for RETAIN. -/
structure MemberPublished (s : State) (p : Port) (a : ApIdx) (bind : Binding) (buf : BufId) (reopened : Option BufId)
    (t : State) : Prop where
  entry : ∀ e, t.entry e = if bind.entry = e then (s.entry bind.entry).published p buf s.timeBase else s.entry e
  own : t.aperture p a = reopened.elim .closed fun nb => .writing bind nb ((s.entry bind.entry).version + 1)
  others : ∀ q c, ¬(q = p ∧ c = a) →
    t.aperture q c = (s.aperture q c).markUpdated bind.entry (s.entry bind.entry).generation
  buffer : ∀ x, t.buffer x =
    if reopened = some x then { state := .staged p a, holds := 0 }
    else if buf = x then { state := .current bind.entry, holds := 0 }
    else if (s.entry bind.entry).current = some x then (s.buffer x).left
    else s.buffer x
  freeList : reopened.toList ++ t.freeList = s.freeList ++ (s.freedByPublish p a).toList
  mem : t.mem = reopened.elim s.mem fun nb => s.mem.fill nb (copyFill s.mem buf (s.entry bind.entry).length)
  nuInput : t.nuInput = s.nuInput ++ [s.publishedReport p bind.entry]

/-- Without RETAIN a member ends CLOSED (R79). -/
theorem memberPublished_closed (h : s.aperture p a = .writing bind buf base) :
    MemberPublished s p a bind buf none (s.publishMember p false a) := by
  have heq : s.publishMember p false a = (s.makeCurrent p bind buf).setAperture p a .closed := by
    simp only [State.publishMember, h]
    rfl
  rw [heq]
  exact {
    entry := entry_makeCurrent s p bind buf
    own := by simp
    others := fun q c hqc => by
      rw [State.aperture_setAperture, if_neg fun hq => hqc ⟨hq.1.symm, hq.2.symm⟩, aperture_makeCurrent]
    buffer := fun x => by simp [buffer_makeCurrent]
    freeList := freeList_makeCurrent_of_writing h
    mem := mem_makeCurrent s p bind buf
    nuInput := nuInput_makeCurrent s p bind buf }

/-- With RETAIN a member ends on the head of the free list (R80). -/
theorem memberPublished_reopened (h : s.aperture p a = .writing bind buf base) {nb : BufId} {rest : List BufId}
    (hfree : s.freeList = nb :: rest) : MemberPublished s p a bind buf (some nb) (s.publishMember p true a) := by
  have hlist := freeList_makeCurrent_of_writing h
  obtain ⟨nb', u, hu, heq⟩ := endMember_retain (s.makeCurrent p bind buf) p a bind buf (by simp [hlist, hfree])
  have hentry : (s.makeCurrent p bind buf).entry bind.entry = (s.entry bind.entry).published p buf s.timeBase := by
    rw [entry_makeCurrent, if_pos rfl]
  have hpublish : s.publishMember p true a = u.setAperture p a (.writing bind nb' ((s.entry bind.entry).version + 1)) := by
    simp only [State.publishMember, h]
    rw [heq, hentry]
    rfl
  obtain rfl : nb = nb' := by
    have := hu.freeList.symm.trans (hlist.trans (congrArg (· ++ _) hfree))
    exact (List.cons.inj this).1.symm
  rw [hpublish]
  have hbeside : u.besidesPool = (s.makeCurrent p bind buf).besidesPool := by
    have := besidesPool_endMember (s.makeCurrent p bind buf) p true a bind buf
    rwa [heq, besidesPool_setAperture] at this
  exact {
    entry := fun e => by rw [State.setAperture_entry, hu.entry, entry_makeCurrent]
    own := by simp
    others := fun q c hqc => by
      rw [State.aperture_setAperture, if_neg fun hq => hqc ⟨hq.1.symm, hq.2.symm⟩, hu.aperture, aperture_makeCurrent]
    buffer := fun x => by
      rw [State.setAperture_buffer, hu.buffer, buffer_makeCurrent]
      simp only [Option.some.injEq]
    freeList := by rw [← hlist, hu.freeList]; rfl
    mem := by
      rw [State.setAperture_mem, hu.mem, mem_makeCurrent, hentry, length_published, Option.elim_some]
    nuInput := (congrArg State.nuInput hbeside :).trans (nuInput_makeCurrent s p bind buf) }

/-- A member takes a buffer from the head of the free list exactly with RETAIN (R79, R80). -/
theorem memberPublished (h : s.aperture p a = .writing bind buf base) {retain : Bool} {reopened : Option BufId}
    {rest : List BufId} (hretain : reopened.isSome = retain) (hfree : s.freeList = reopened.toList ++ rest) :
    MemberPublished s p a bind buf reopened (s.publishMember p retain a) := by
  subst hretain
  cases reopened with
  | none => exact memberPublished_closed h
  | some nb => exact memberPublished_reopened h hfree

end

end Sys2Proof.Machine
end

section
/-! PROOF. An accepted PUB publishes every member of its set at one store event (O42). -/

namespace Sys2Proof.Machine

/-! ### Records that members take, each record by one member -/

/-- By the members `done` each record that one of them takes has the value that it gives, and the others are as before. -/
structure Taken {κ α : Type} (takes : ApIdx → κ → Prop) (value : ApIdx → κ → α) (before : κ → α) (done : List ApIdx)
    (after : κ → α) : Prop where
  taken : ∀ a ∈ done, ∀ k, takes a k → after k = value a k
  others : ∀ k, (∀ a ∈ done, ¬takes a k) → after k = before k

section
variable {κ α : Type} {takes : ApIdx → κ → Prop} {value : ApIdx → κ → α} {before after after' : κ → α} {done : List ApIdx}
  {a : ApIdx}

theorem Taken.refl : Taken takes value before [] before := ⟨fun _ h => absurd h List.not_mem_nil, fun _ _ => rfl⟩

/-- One more member takes its records, none of which was taken before. -/
theorem Taken.concat (h : Taken takes value before done after) (hfresh : ∀ k, takes a k → ∀ c ∈ done, ¬takes c k)
    (hown : ∀ k, takes a k → after k = before k → after' k = value a k) (hother : ∀ k, ¬takes a k → after' k = after k) :
    Taken takes value before (done ++ [a]) after' where
  taken c hc k hk := by
    rcases List.mem_append.mp hc with hdone | hlast
    · rw [hother k fun ha => hfresh k ha c hdone hk]
      exact h.taken c hdone k hk
    · obtain rfl := List.mem_singleton.mp hlast
      exact hown k hk (h.others k (hfresh k hk))
  others k hk := by
    rw [hother k (hk a (by simp))]
    exact h.others k fun c hc => hk c (by simp [hc])

end

section
variable {s u t : State} {p : Port} {mask : Byte} {retain : Bool} {a c : ApIdx} {bind : Binding} {buf x : BufId}
  {base : Version} {e : EntryId} {done rest : List ApIdx}

/-! ### The records that a member takes -/

/-- A set of writers whose checks have passed, with the buffers that RETAIN takes (R71, R74). -/
structure State.PublishAccepted (s : State) (p : Port) (mask : Byte) (retain : Bool) : Prop where
  pool : s.PoolOk
  bindings : s.BindingsOk
  mem : s.mem.wf
  writes : ∀ a : ApIdx, mask.getLsbD a = true → ∃ bind buf base, s.aperture p a = .writing bind buf base
  room : retain = true → (members mask).length ≤ s.freeList.length

/-- The buffer that RETAIN takes for member `a`; none without RETAIN. -/
def State.reopens (s : State) (mask : Byte) (retain : Bool) (a : ApIdx) : Option BufId :=
  if retain then s.reopenedOn mask a else none

theorem reopens_eq_some : s.reopens mask retain a = some x ↔ retain = true ∧ s.reopenedOn mask a = some x := by
  cases retain <;> simp [State.reopens]

/-- What is left of the free list once RETAIN has taken a buffer for each of `n` members. -/
def State.freeListPast (s : State) (retain : Bool) (n : Nat) : List BufId :=
  if retain then s.freeList.drop n else s.freeList

/-- With RETAIN there is a buffer for every member (R74). -/
theorem isSome_reopens (h : s.PublishAccepted p mask retain) (hm : members mask = done ++ a :: rest) :
    (s.reopens mask retain a).isSome = retain := by
  cases hr : retain with
  | false => rfl
  | true =>
    have hroom := h.room hr
    rw [hm, List.length_append, List.length_cons] at hroom
    have hlt : done.length < s.freeList.length := by omega
    simpa [State.reopens, State.reopenedOn, countUpTo_of_members_eq hm] using hlt

theorem isSome_reopens_of_member (h : s.PublishAccepted p mask retain) (ha : mask.getLsbD a = true) :
    (s.reopens mask retain a).isSome = retain :=
  let ⟨_, _, hm, _⟩ := members_split ha
  isSome_reopens h hm

/-- The next member takes the head of what is left of the free list (R80). -/
theorem freeListPast_eq (s : State) (retain : Bool) (hm : members mask = done ++ a :: rest) :
    s.freeListPast retain done.length =
      (s.reopens mask retain a).toList ++ s.freeListPast retain (done ++ [a]).length := by
  cases retain with
  | false => rfl
  | true =>
    simp only [State.reopens, State.reopenedOn, State.freeListPast, countUpTo_of_members_eq hm, if_true]
    simpa using List.drop_eq_getElem?_toList_append

/-- Member `a` takes the buffer: it is staged, replaced or reopened on. -/
def State.takesBuffer (s : State) (p : Port) (mask : Byte) (retain : Bool) (a : ApIdx) (x : BufId) : Prop :=
  (s.aperture p a).stages = some x ∨ s.replacedBy p a = some x ∨ s.reopens mask retain a = some x

theorem publishedBy_eq_some :
    s.publishedBy p a = some e ↔ ∃ bind buf base, s.aperture p a = .writing bind buf base ∧ bind.entry = e := by
  unfold State.publishedBy
  split <;> rename_i hap
  · simp [hap]
  · simp only [reduceCtorEq, false_iff]
    exact fun ⟨bind, buf, base, h, _⟩ => hap bind buf base h

/-- No two members publish one entry (R58). -/
theorem publishedBy_unique (h : s.BindingsOk) (ha : s.publishedBy p a = some e) (hc : s.publishedBy p c = some e) : a = c := by
  obtain ⟨bind, buf, base, hap, rfl⟩ := publishedBy_eq_some.mp ha
  obtain ⟨bind', buf', base', hap', he⟩ := publishedBy_eq_some.mp hc
  exact h.apart p a c bind.entry (by simp [hap]) (by simp [hap']) (by simp [hap, Aperture.binding])
    (by simp [hap', Aperture.binding, he])

theorem reopens_unique (h : s.PoolOk) (ha : mask.getLsbD a = true) (hc : mask.getLsbD c = true)
    (hax : s.reopens mask retain a = some x) (hcx : s.reopens mask retain c = some x) : a = c := by
  obtain ⟨-, hax⟩ := reopens_eq_some.mp hax
  obtain ⟨-, hcx⟩ := reopens_eq_some.mp hcx
  have hplace : countUpTo mask a (fun _ => true) - 1 = countUpTo mask c (fun _ => true) - 1 :=
    (List.getElem?_inj (List.getElem?_eq_some_iff.mp hax).1 h.freeNodup).mp (hax.trans hcx.symm)
  exact Option.some.inj ((members_getElem?_countUpTo ha).symm.trans ((congrArg _ hplace).trans (members_getElem?_countUpTo hc)))

theorem free_of_reopens (h : s.PoolOk) (hx : s.reopens mask retain a = some x) : (s.buffer x).state = .free :=
  (h.free x).mp (List.mem_of_getElem? (reopens_eq_some.mp hx).2)

theorem current_of_replacedBy (h : s.PoolOk) (hx : s.replacedBy p a = some x) :
    ∃ e, s.publishedBy p a = some e ∧ (s.buffer x).state = .current e := by
  obtain ⟨e, he, hcur⟩ := Option.bind_eq_some_iff.mp hx
  exact ⟨e, he, (h.current x e).mpr hcur⟩

/-- A buffer's state tells which member can take it, and as what (R25). -/
theorem state_of_takesBuffer (h : s.PoolOk) (hx : s.takesBuffer p mask retain a x) :
    (s.buffer x).state = .staged p a ∨ (∃ e, s.publishedBy p a = some e ∧ (s.buffer x).state = .current e) ∨
      (s.reopens mask retain a = some x ∧ (s.buffer x).state = .free) := by
  rcases hx with hstages | hreplaced | hreopens
  · exact .inl ((h.staged x p a).mpr hstages)
  · exact .inr (.inl (current_of_replacedBy h hreplaced))
  · exact .inr (.inr ⟨hreopens, free_of_reopens h hreopens⟩)

/-- No two members take one buffer. -/
theorem takesBuffer_unique (h : s.PublishAccepted p mask retain) (ha : mask.getLsbD a = true) (hc : mask.getLsbD c = true)
    (hax : s.takesBuffer p mask retain a x) (hcx : s.takesBuffer p mask retain c x) : a = c := by
  rcases state_of_takesBuffer h.pool hax with hs | ⟨e, he, hs⟩ | ⟨hr, hs⟩ <;>
    rcases state_of_takesBuffer h.pool hcx with hs' | ⟨e', he', hs'⟩ | ⟨hr', hs'⟩ <;> rw [hs] at hs' <;> cases hs'
  · rfl
  · exact publishedBy_unique h.bindings he he'
  · exact reopens_unique h.pool ha hc hr hr'

/-! ### What a member gives -/

/-- The entry that member `a` leaves (R76). -/
def State.entryGiven (s : State) (p : Port) (a : ApIdx) (e : EntryId) : Entry :=
  match s.aperture p a with
  | .writing _ buf _ => (s.entry e).published p buf s.timeBase
  | _ => s.entry e

/-- The record that member `a` leaves of a buffer (R33, R34, R80). -/
def State.bufferGiven (s : State) (p : Port) (mask : Byte) (retain : Bool) (a : ApIdx) (x : BufId) : BufRec :=
  match s.aperture p a with
  | .writing bind buf _ =>
    if s.reopens mask retain a = some x then { state := .staged p a, holds := 0 }
    else if buf = x then { state := .current bind.entry, holds := 0 }
    else (s.buffer x).left
  | _ => s.buffer x

/-- The words that member `a` leaves in the buffer on which it is reopened: a copy of the value published (R80). -/
def State.wordsGiven (s : State) (p : Port) (a : ApIdx) : WordIdx → Word :=
  match s.aperture p a with
  | .writing bind buf _ => copyFill s.mem buf bind.length
  | _ => fun _ => 0

/-- The aperture that member `a` leaves (R79, R80). -/
def State.apertureGiven (s : State) (p : Port) (mask : Byte) (retain : Bool) (a : ApIdx) : Aperture :=
  match s.aperture p a with
  | .writing bind _ _ =>
    (s.reopens mask retain a).elim .closed fun nb => .writing bind nb ((s.entry bind.entry).version + 1)
  | x => x

/-- The UPDATED flags after the publication of a set of entries (R77). -/
def Aperture.markPublished (f : EntryId → Bool) : Aperture → Aperture
  | .reading b buf v t fl => .reading b buf v t { fl with updated := fl.updated || (!fl.gone && f b.entry) }
  | x => x

theorem entryGiven_of_writing (h : s.aperture p a = .writing bind buf base) (e : EntryId) :
    s.entryGiven p a e = (s.entry e).published p buf s.timeBase := by
  simp only [State.entryGiven, h]

theorem bufferGiven_of_writing (h : s.aperture p a = .writing bind buf base) (x : BufId) :
    s.bufferGiven p mask retain a x =
      if s.reopens mask retain a = some x then { state := .staged p a, holds := 0 }
      else if buf = x then { state := .current bind.entry, holds := 0 }
      else (s.buffer x).left := by
  simp only [State.bufferGiven, h]

/-- The buffer on which a member is reopened becomes STAGED for it (R80). -/
theorem bufferGiven_of_reopens (hap : s.aperture p a = .writing bind buf base) (hx : s.reopens mask retain a = some x) :
    s.bufferGiven p mask retain a x = { state := .staged p a, holds := 0 } := by
  rw [bufferGiven_of_writing hap, if_pos hx]

/-- The staged buffer becomes the entry's current one (R33). -/
theorem bufferGiven_of_stages (h : s.PoolOk) (hap : s.aperture p a = .writing bind buf base) :
    s.bufferGiven p mask retain a buf = { state := .current bind.entry, holds := 0 } := by
  have hstate : (s.buffer buf).state = .staged p a := (h.staged buf p a).mpr (by rw [hap]; rfl)
  have hnew : s.reopens mask retain a ≠ some buf := fun hx => nomatch hstate.symm.trans (free_of_reopens h hx)
  rw [bufferGiven_of_writing hap, if_neg hnew, if_pos rfl]

/-- The replaced buffer leaves the entry (R34). -/
theorem bufferGiven_of_replacedBy (h : s.PoolOk) (hap : s.aperture p a = .writing bind buf base)
    (hx : s.replacedBy p a = some x) : s.bufferGiven p mask retain a x = (s.buffer x).left := by
  obtain ⟨e, -, hstate⟩ := current_of_replacedBy h hx
  have hnew : s.reopens mask retain a ≠ some x := fun hr => nomatch hstate.symm.trans (free_of_reopens h hr)
  have hstaged : buf ≠ x := fun hb => by
    have := (h.staged x p a).mpr (by rw [hap, hb]; rfl)
    exact nomatch hstate.symm.trans this
  rw [bufferGiven_of_writing hap, if_neg hnew, if_neg hstaged]

theorem wordsGiven_of_writing (h : s.aperture p a = .writing bind buf base) :
    s.wordsGiven p a = copyFill s.mem buf bind.length := by
  simp only [State.wordsGiven, h]

theorem apertureGiven_of_writing (h : s.aperture p a = .writing bind buf base) :
    s.apertureGiven p mask retain a =
      (s.reopens mask retain a).elim .closed fun nb => .writing bind nb ((s.entry bind.entry).version + 1) := by
  simp only [State.apertureGiven, h]

/-- What a member leaves shows no UPDATED flag. -/
theorem markUpdated_apertureGiven (h : s.aperture p a = .writing bind buf base) (e : EntryId) (g : Generation) :
    (s.apertureGiven p mask retain a).markUpdated e g = s.apertureGiven p mask retain a := by
  rw [apertureGiven_of_writing h]
  cases s.reopens mask retain a <;> rfl

/-- One more entry published marks its readers: those that are not GONE have its generation (R44, R47). -/
theorem markUpdated_markPublished (h : s.BindingsOk) (q : Port) (c : ApIdx) (f : EntryId → Bool) (e : EntryId) :
    ((s.aperture q c).markPublished f).markUpdated e (s.entry e).generation =
      (s.aperture q c).markPublished fun e' => f e' || decide (e = e') := by
  cases hap : s.aperture q c with
  | closed | writing | orphaned => rfl
  | reading b buf v t fl =>
    have hreader := h.readers q c b buf v t fl hap
    cases hgone : fl.gone with
    | true => simp [Aperture.markPublished, Aperture.markUpdated, hgone]
    | false =>
      simp only [State.ReaderOk, hgone, Bool.false_eq_true, if_false] at hreader
      obtain ⟨-, hgen, -⟩ := hreader
      by_cases he : e = b.entry
      · subst he
        simp [Aperture.markPublished, Aperture.markUpdated, Binding.boundTo, hgone, hgen]
      · simp [Aperture.markPublished, Aperture.markUpdated, Binding.boundTo, he, Ne.symm he]

/-! ### The members taken one by one -/

/-- What a PUB has made of the state by the members `done`. -/
structure State.PublishedTo (s : State) (p : Port) (mask : Byte) (retain : Bool) (done : List ApIdx) (u : State) : Prop where
  entries : Taken (fun a e => s.publishedBy p a = some e) (s.entryGiven p) s.entry done u.entry
  buffers : Taken (s.takesBuffer p mask retain) (s.bufferGiven p mask retain) s.buffer done u.buffer
  words : Taken (fun a x => s.reopens mask retain a = some x) (fun a _ => s.wordsGiven p a) s.mem.readWord done u.mem.readWord
  mem : u.mem.wf
  own : ∀ a ∈ done, u.aperture p a = s.apertureGiven p mask retain a
  others : ∀ q c, ¬(q = p ∧ c ∈ done) →
    u.aperture q c = (s.aperture q c).markPublished fun e => done.any fun m => decide (s.publishedBy p m = some e)
  freeList : u.freeList = s.freeListPast retain done.length ++ done.filterMap (s.freedByPublish p)
  nuInput : u.nuInput = s.nuInput ++ done.filterMap fun a => (s.publishedBy p a).map (s.publishedReport p)
  beside : u.besidesPublication = s.besidesPublication

theorem State.PublishedTo.refl (h : s.PublishAccepted p mask retain) : s.PublishedTo p mask retain [] s where
  entries := .refl
  buffers := .refl
  words := .refl
  mem := h.mem
  own _ ha := absurd ha List.not_mem_nil
  others q c _ := by
    cases s.aperture q c <;> simp [Aperture.markPublished]
  freeList := by cases retain <;> simp [State.freeListPast]
  nuInput := by simp
  beside := rfl

theorem State.PublishedTo.timeBase (hu : s.PublishedTo p mask retain done u) : u.timeBase = s.timeBase :=
  (congrArg State.timeBase hu.beside :)

/-! #### The next member -/

theorem isMember_of_mem_done (hm : members mask = done ++ a :: rest) (hc : c ∈ done) : mask.getLsbD c = true :=
  (mem_members mask c).mp (by simp [hm, hc])

/-- No member has taken a buffer that the next one takes. -/
theorem takesBuffer_fresh (h : s.PublishAccepted p mask retain) (hm : members mask = done ++ a :: rest) (x : BufId)
    (hx : s.takesBuffer p mask retain a x) : ∀ c ∈ done, ¬s.takesBuffer p mask retain c x := fun _ hc hcx =>
  not_mem_done hm (takesBuffer_unique h (isMember_of_mem_done hm hc) (isMember_of_eq hm) hcx hx ▸ hc)

/-- No member has published the entry that the next one publishes. -/
theorem publishedBy_fresh (h : s.BindingsOk) (hm : members mask = done ++ a :: rest) (e : EntryId)
    (he : s.publishedBy p a = some e) : ∀ c ∈ done, s.publishedBy p c ≠ some e := fun _ hc hce =>
  not_mem_done hm (publishedBy_unique h hce he ▸ hc)

theorem copyFill_congr {m m' : Memory} {b : BufId} (h : m.readWord b = m'.readWord b) (length : Fin 17) :
    copyFill m b length = copyFill m' b length := by
  unfold copyFill
  rw [h]

section
variable (h : s.PublishAccepted p mask retain) (hu : s.PublishedTo p mask retain done u)
  (hm : members mask = done ++ a :: rest) (hap : s.aperture p a = .writing bind buf base)
include hu hm hap

/-- The next member still writes. -/
theorem State.PublishedTo.aperture_next : u.aperture p a = .writing bind buf base := by
  rw [hu.others p a fun ha => not_mem_done hm ha.2, hap]
  rfl

include h

theorem State.PublishedTo.entry_next : u.entry bind.entry = s.entry bind.entry :=
  hu.entries.others _ (publishedBy_fresh h.bindings hm _ (publishedBy_of_writing hap))

theorem State.PublishedTo.report_next : u.publishedReport p bind.entry = s.publishedReport p bind.entry := by
  rw [State.publishedReport, hu.entry_next h hm hap, hu.timeBase]
  rfl

theorem State.PublishedTo.freedByPublish_next : u.freedByPublish p a = s.freedByPublish p a := by
  have hreplaced : u.replacedBy p a = s.replacedBy p a := by
    rw [replacedBy_of_writing (hu.aperture_next hm hap), replacedBy_of_writing hap, hu.entry_next h hm hap]
  rw [State.freedByPublish, State.freedByPublish, hreplaced]
  cases hold : s.replacedBy p a with
  | none => rfl
  | some old =>
    have hbuf := hu.buffers.others old (takesBuffer_fresh h hm old (.inr (.inl hold)))
    simp only [Option.filter, hbuf]

/-- What the next member makes of the state that it finds. -/
theorem State.PublishedTo.memberPublished_next :
    MemberPublished u p a bind buf (s.reopens mask retain a) (u.publishMember p retain a) :=
  memberPublished (hu.aperture_next hm hap) (isSome_reopens h hm)
    (by rw [hu.freeList, freeListPast_eq s retain hm, List.append_assoc])

section
variable (ht : MemberPublished u p a bind buf (s.reopens mask retain a) t)
include ht

theorem State.PublishedTo.entries_next :
    Taken (fun a e => s.publishedBy p a = some e) (s.entryGiven p) s.entry (done ++ [a]) t.entry := by
  have hpub := publishedBy_of_writing hap
  refine hu.entries.concat (publishedBy_fresh h.bindings hm) (fun e he _ => ?_) fun e he => ?_
  · obtain rfl : bind.entry = e := Option.some.inj (hpub.symm.trans he)
    rw [ht.entry, if_pos rfl, hu.entry_next h hm hap, hu.timeBase, entryGiven_of_writing hap]
  · rw [ht.entry, if_neg fun heq => he (by rw [hpub, heq])]

theorem State.PublishedTo.buffers_next :
    Taken (s.takesBuffer p mask retain) (s.bufferGiven p mask retain) s.buffer (done ++ [a]) t.buffer := by
  have hstages : (s.aperture p a).stages = some buf := by rw [hap]; rfl
  have hreplaced := replacedBy_of_writing hap
  refine hu.buffers.concat (takesBuffer_fresh h hm) (fun x hx hkept => ?_) fun x hx => ?_
  · rw [ht.buffer, bufferGiven_of_writing hap, hkept, hu.entry_next h hm hap]
    refine ite_congr rfl (fun _ => rfl) fun hnew => ite_congr rfl (fun _ => rfl) fun hstaged => if_pos ?_
    rcases hx with hx | hx | hx
    · exact absurd (Option.some.inj (hstages.symm.trans hx)) hstaged
    · exact hreplaced.symm.trans hx
    · exact absurd hx hnew
  · rw [ht.buffer, hu.entry_next h hm hap, if_neg fun hnew => hx (.inr (.inr hnew)),
      if_neg fun hstaged => hx (.inl (hstages.trans (congrArg some hstaged))),
      if_neg fun hold => hx (.inr (.inl (hreplaced.trans hold)))]

theorem State.PublishedTo.words_next :
    Taken (fun a x => s.reopens mask retain a = some x) (fun a _ => s.wordsGiven p a) s.mem.readWord (done ++ [a])
      t.mem.readWord := by
  refine hu.words.concat (fun x hx c hc hcx => takesBuffer_fresh h hm x (.inr (.inr hx)) c hc (.inr (.inr hcx)))
    (fun x hx _ => funext fun w => ?_) fun x hx => funext fun w => ?_
  · obtain ⟨-, -, hlen, -⟩ := h.bindings.writers p a bind buf base hap
    have hvalue : u.mem.readWord buf = s.mem.readWord buf := hu.words.others buf fun c hc hcx =>
      takesBuffer_fresh h hm buf (.inl (by rw [hap]; rfl)) c hc (.inr (.inr hcx))
    rw [ht.mem, hx, Option.elim_some, Memory.readWord_fill u.mem hu.mem, if_pos rfl, hu.entry_next h hm hap, hlen,
      copyFill_congr hvalue, wordsGiven_of_writing hap]
  · rw [ht.mem]
    cases hr : s.reopens mask retain a with
    | none => rfl
    | some nb => rw [Option.elim_some, Memory.readWord_fill u.mem hu.mem, if_neg fun hxn => hx (by rw [hr, hxn])]

theorem State.PublishedTo.own_next : ∀ c ∈ done ++ [a], t.aperture p c = s.apertureGiven p mask retain c := by
  intro c hc
  rcases List.mem_append.mp hc with hdone | hlast
  · obtain ⟨bind', buf', base', hap'⟩ := h.writes c (isMember_of_mem_done hm hdone)
    rw [ht.others p c fun hca => not_mem_done hm (hca.2 ▸ hdone), hu.own c hdone, markUpdated_apertureGiven hap']
  · obtain rfl := List.mem_singleton.mp hlast
    rw [ht.own, hu.entry_next h hm hap, apertureGiven_of_writing hap]

theorem State.PublishedTo.others_next (q : Port) (c : ApIdx) (hqc : ¬(q = p ∧ c ∈ done ++ [a])) :
    t.aperture q c =
      (s.aperture q c).markPublished fun e => (done ++ [a]).any fun m => decide (s.publishedBy p m = some e) := by
  rw [ht.others q c fun hca => hqc ⟨hca.1, by simp [hca.2]⟩, hu.others q c fun hca => hqc ⟨hca.1, by simp [hca.2]⟩,
    hu.entry_next h hm hap, markUpdated_markPublished h.bindings]
  simp only [List.any_append, List.any_cons, List.any_nil, Bool.or_false, publishedBy_of_writing hap, Option.some.injEq]

theorem State.PublishedTo.freeList_next :
    t.freeList = s.freeListPast retain (done ++ [a]).length ++ (done ++ [a]).filterMap (s.freedByPublish p) := by
  have hlist := ht.freeList
  rw [hu.freeList, freeListPast_eq s retain hm, hu.freedByPublish_next h hm hap, List.append_assoc, List.append_assoc] at hlist
  rw [filterMap_concat]
  exact List.append_cancel_left hlist

theorem State.PublishedTo.nuInput_next :
    t.nuInput = s.nuInput ++ (done ++ [a]).filterMap fun a => (s.publishedBy p a).map (s.publishedReport p) := by
  rw [ht.nuInput, hu.nuInput, hu.report_next h hm hap, filterMap_concat, publishedBy_of_writing hap, List.append_assoc]
  rfl

end

/-- One more member published (R76 to R80). -/
theorem State.PublishedTo.concat : s.PublishedTo p mask retain (done ++ [a]) (u.publishMember p retain a) :=
  have ht := hu.memberPublished_next h hm hap
  { entries := hu.entries_next h hm hap ht
    buffers := hu.buffers_next h hm hap ht
    words := hu.words_next h hm hap ht
    mem := by
      rw [ht.mem]
      cases s.reopens mask retain a with
      | none => exact hu.mem
      | some nb => rw [Option.elim_some]; exact Memory.fill_wf u.mem hu.mem nb _
    own := hu.own_next h hm hap ht
    others := hu.others_next h hm hap ht
    freeList := hu.freeList_next h hm hap ht
    nuInput := hu.nuInput_next h hm hap ht
    beside := (besidesPublication_publishMember u p retain a).trans hu.beside }

end

/-- The members of an accepted PUB published one by one. -/
theorem publishedTo_members (h : s.PublishAccepted p mask retain) :
    s.PublishedTo p mask retain (members mask) ((members mask).foldl (fun s a => s.publishMember p retain a) s) := by
  refine along_members (I := fun done => s.PublishedTo p mask retain done
    (done.foldl (fun s a => s.publishMember p retain a) s)) (.refl h) fun done a rest hm hu => ?_
  obtain ⟨bind, buf, base, hap⟩ := h.writes a (isMember_of_eq hm)
  rw [List.foldl_concat]
  exact hu.concat h hm hap

/-! ### The whole set -/

theorem any_members (mask : Byte) (f : ApIdx → Prop) [DecidablePred f] :
    ((members mask).any fun m => decide (f m)) = decide (∃ m : ApIdx, mask.getLsbD m = true ∧ f m) := by
  rw [Bool.eq_iff_iff]
  simp [mem_members]

section
variable (hu : s.PublishedTo p mask retain (members mask) u)
include hu

/-- RETAIN reopens a member on its buffer with a copy of the value just published (R80). -/
theorem State.PublishedTo.reopened (h : s.PublishAccepted p mask retain) (ha : mask.getLsbD a = true)
    (hap : s.aperture p a = .writing bind buf base) (hr : retain = true) :
    ∃ nb, s.reopenedOn mask a = some nb ∧ u.aperture p a = .writing bind nb ((s.entry bind.entry).version + 1) ∧
      u.buffer nb = { state := .staged p a, holds := 0 } ∧
      ∀ w, u.mem.readWord nb w = if w.val < bind.length.val then s.mem.readWord buf w else 0 := by
  have hin := (mem_members mask a).mpr ha
  obtain ⟨nb, hnb⟩ := Option.isSome_iff_exists.mp ((isSome_reopens_of_member h ha).trans hr)
  refine ⟨nb, (reopens_eq_some.mp hnb).2, ?_, ?_, fun w => ?_⟩
  · rw [hu.own a hin, apertureGiven_of_writing hap, hnb, Option.elim_some]
  · rw [hu.buffers.taken a hin nb (.inr (.inr hnb)), bufferGiven_of_reopens hap hnb]
  · rw [hu.words.taken a hin nb hnb, wordsGiven_of_writing hap]
    rfl

/-- The readers of every entry published show UPDATED, and the other apertures are as before (R77). -/
theorem State.PublishedTo.aperture_other {q : Port} (hqa : ¬(q = p ∧ mask.getLsbD a = true)) :
    u.aperture q a = (s.aperture q a).markPublished fun e =>
      decide (∃ m : ApIdx, mask.getLsbD m = true ∧ s.publishedBy p m = some e) := by
  rw [hu.others q a fun h => hqa ⟨h.1, (mem_members mask a).mp h.2⟩]
  simp only [any_members]

/-- A buffer that no member stages, replaces or is reopened on is as before. -/
theorem State.PublishedTo.buffer_other (hx : ∀ a : ApIdx, mask.getLsbD a = true → (s.aperture p a).stages ≠ some x ∧
    s.replacedBy p a ≠ some x ∧ (retain = true → s.reopenedOn mask a ≠ some x)) : u.buffer x = s.buffer x := by
  refine hu.buffers.others x fun a ha htakes => ?_
  obtain ⟨hstages, hreplaced, hreopened⟩ := hx a ((mem_members mask a).mp ha)
  rcases htakes with htakes | htakes | htakes
  · exact hstages htakes
  · exact hreplaced htakes
  · exact hreopened (reopens_eq_some.mp htakes).1 (reopens_eq_some.mp htakes).2

/-- A PUB writes no word but those of the buffers on which RETAIN reopens its members. -/
theorem State.PublishedTo.readWord_other
    (hx : ∀ a : ApIdx, mask.getLsbD a = true → retain = true → s.reopenedOn mask a ≠ some x) (w : WordIdx) :
    u.mem.readWord x w = s.mem.readWord x w := by
  refine congrFun (hu.words.others x fun a ha htakes => ?_) w
  obtain ⟨hr, hreopened⟩ := reopens_eq_some.mp htakes
  exact hx a ((mem_members mask a).mp ha) hr hreopened

end

/-! ### The results -/

theorem getElem_resultWords (l : List Word) (i : Nat) (hi : i < 10) : (resultWords l)[i] = l.getD i 0 := by
  simp [resultWords]

/-- A member's result word is the version given, and 0 outside the mask (R81). -/
theorem getElem_pubResults (s : State) (p : Port) (mask : Byte) (a : ApIdx) :
    (s.pubResults p mask)[2 + a.val] = s.versionGiven p mask a := by
  rw [State.pubResults, getElem_resultWords, List.getD_append_right _ _ _ _ (by simp)]
  simp

theorem versionGiven_of_writing (ha : mask.getLsbD a = true) (h : s.aperture p a = .writing bind buf base) :
    s.versionGiven p mask a = (s.entry bind.entry).version + 1 := by
  simp only [State.versionGiven, ha, h]

theorem versionGiven_of_not_member (ha : mask.getLsbD a = false) : s.versionGiven p mask a = 0 := by
  simp only [State.versionGiven, ha]

end

/-- Settles O42: the members are published one by one, and `State.PublishedTo` says what they add up to. -/
theorem publishMakesTheWholeSetCurrent : Obligations.PublishMakesTheWholeSetCurrent := by
  intro s p c mask conditional retain hpool hbindings hmem hturn hreq hready hroom
  have haccepted : s.PublishAccepted p mask retain := ⟨hpool, hbindings, hmem, fun a ha => by
    obtain ⟨b, buf, base, r, hap, -⟩ := hready a ha
    exact ⟨b, buf, base, hap⟩, hroom⟩
  have hchecks : firstFailure (s.pubCheck p conditional c.answers) (members mask) = none :=
    firstFailure_members_eq_none fun a ha => by
      obtain ⟨b, buf, base, r, hap, hans, hwrite, hbase⟩ := hready a ha
      obtain ⟨hdef, hgen, -⟩ := hbindings.writers p a b buf base hap
      exact pubCheck_eq_none hap ((rightToPublish_iff _ _).mpr ⟨r, hans, hwrite⟩) hdef hgen hbase
  have hu := publishedTo_members haccepted
  have hin := fun {a : ApIdx} => (mem_members mask a).mpr
  refine ⟨_, s.pubResults p mask, ?_, fun a b buf base ha hap => ⟨?_, ?_, fun hr => ?_, hu.reopened haccepted ha hap, ?_⟩,
    fun e he => hu.entries.others e fun a ha => he a ((mem_members mask a).mp ha), fun q a hqa => ?_,
    fun a old ha hold => ?_, fun x hx => hu.buffer_other hx, hu.freeList, fun x w hx => hu.readWord_other hx w, hu.nuInput,
    timeLow_eq_setWidth s.timeBase, timeHigh_eq_setWidth s.timeBase, fun a ha => ?_,
    eq_with_published_of_besidesPublication hu.beside⟩
  · rw [exec_pub hturn hreq, publish_of_accepted hchecks hroom]
    rfl
  · rw [hu.entries.taken a (hin ha) _ (publishedBy_of_writing hap), entryGiven_of_writing hap]
    rfl
  · rw [hu.buffers.taken a (hin ha) buf (.inl (by rw [hap]; rfl)), bufferGiven_of_stages hpool hap]
  · rw [hu.own a (hin ha), apertureGiven_of_writing hap, hr]
    rfl
  · rw [getElem_pubResults, versionGiven_of_writing ha hap]
  · rw [hu.aperture_other hqa]
    cases s.aperture q a <;> rfl
  · obtain ⟨b, buf, base, r, hap, -⟩ := hready a ha
    rw [hu.buffers.taken a (hin ha) old (.inr (.inl hold)), bufferGiven_of_replacedBy hpool hap hold]
    rfl
  · rw [getElem_pubResults, versionGiven_of_not_member ha]

end Sys2Proof.Machine
end

section
/-! PROOF. Time (O3): the microsecond of an empty queue, and the millisecond expiry that the microseconds amount to. -/

namespace Sys2Proof.Machine

/-! ### The microsecond and the millisecond expiry -/

/-- A saturating count of 16 bits stays at FFFFh (Conventions, "Numbers"). -/
theorem saturatingSucc_half (x : Half) : saturatingSucc x = if x = 0xFFFF then 0xFFFF else x + 1 := by
  change (if x = 0xFFFF then x else x + 1) = _
  split
  · assumption
  · rfl

/-- What a millisecond expiry leaves when the time base then reads `now` (R93, R94). -/
def State.atExpiry (s : State) (now : Time) : State :=
  State.arbitrate { s with
    timeBase := now
    phase := 0
    owed := if s.owed = 0xFFFF then 0xFFFF else s.owed + 1
    tickWaiting := true }

section
variable {s : State}

theorem step_of_pending_nil (hqueue : s.pending = []) : step s = .next s.microsecond := by
  unfold step
  rw [hqueue]

/-- A microsecond short of the expiry advances the two counters only (R91, R93). -/
theorem microsecond_within (hphase : s.phase.val ≠ 999) :
    s.microsecond = { s with timeBase := s.timeBase + 1, phase := s.phase + 1 } :=
  if_neg fun h => hphase (congrArg Fin.val h)

/-- The microsecond at phase 999 is the expiry (R93). -/
theorem microsecond_expiry (hphase : s.phase.val = 999) : s.microsecond = s.atExpiry (s.timeBase + 1) := by
  have h999 : s.phase = 999 := Fin.ext hphase
  have hzero : s.phase + 1 = 0 := by rw [h999]; rfl
  rw [State.microsecond, if_pos h999, State.expireMillisecond, State.atExpiry, saturatingSucc_half, hzero]

theorem exec_millisecondExpiry (s : State) :
    exec .millisecondExpiry s = .next (s.atExpiry (s.timeBase + BitVec.ofNat 48 (1000 - s.phase.val))) := by
  change Host.Outcome.next (State.expireMillisecond _) = _
  rw [State.expireMillisecond, State.atExpiry, saturatingSucc_half]

theorem run_succ_of_step {M : Host.Core} {u v : M.State} (k : Nat) (h : M.step u = .next v) : M.run (k + 1) u = M.run k v := by
  rw [Host.Core.run, h]

/-- The microseconds that are left to the expiry, run one by one, amount to it (R93, log entry 2). -/
theorem run_to_expiry (k : Nat) (hqueue : s.pending = []) (hleft : s.phase.val + (k + 1) = 1000) :
    (Host.Core.run Sys2Proof.core (k + 1) s : Host.Outcome State Fault Refusal) =
      .next (s.atExpiry (s.timeBase + BitVec.ofNat 48 (k + 1))) := by
  induction k generalizing s with
  | zero =>
    have hstep : step s = .next (s.atExpiry (s.timeBase + 1)) := by
      rw [step_of_pending_nil hqueue, microsecond_expiry (by omega)]
    exact run_succ_of_step (M := Sys2Proof.core) 0 hstep
  | succ k ih =>
    have hstep : step s = .next { s with timeBase := s.timeBase + 1, phase := s.phase + 1 } := by
      rw [step_of_pending_nil hqueue, microsecond_within (by omega)]
    have hphase : (s.phase + 1).val + (k + 1) = 1000 := by
      rw [Fin.val_add_one_of_lt' (by omega)]
      omega
    have hnow : s.timeBase + 1 + BitVec.ofNat 48 (k + 1) = s.timeBase + BitVec.ofNat 48 (k + 1 + 1) := by
      rw [BitVec.ofNat_add (k + 1) 1, BitVec.add_assoc, BitVec.add_comm 1]
      rfl
    rw [← hnow]
    exact (run_succ_of_step (M := Sys2Proof.core) (k + 1) hstep).trans (ih hqueue hphase)

end

/-- Settles O3: the step is the microsecond, and the run to the expiry is the row by `run_to_expiry`. -/
theorem timePassesToTheMillisecondExpiry : Obligations.TimePassesToTheMillisecondExpiry := by
  refine ⟨fun s hqueue => ⟨fun hphase => ?_, fun hphase => ?_⟩, fun s => ⟨exec_millisecondExpiry s, fun hqueue => ?_⟩⟩
  · rw [step_of_pending_nil hqueue, microsecond_within hphase]
  · rw [step_of_pending_nil hqueue, microsecond_expiry hphase]
    rfl
  · obtain ⟨k, hk⟩ : ∃ k, 1000 - s.phase.val = k + 1 := ⟨999 - s.phase.val, by omega⟩
    rw [exec_millisecondExpiry, hk]
    exact run_to_expiry k hqueue (by omega)

end Sys2Proof.Machine
end

section
/-! PROOF. The tick's store event: the countdowns it lowers (O4), and the expiries it carries out (O5). -/

namespace Sys2Proof.Machine

/-! ### Flagging readers -/

/-- A reader with STALE set where its buffer is one of those named; every other aperture as it is (R48). -/
def Aperture.flagStale (named : BufId → Bool) : Aperture → Aperture
  | .reading b buf v t f => .reading b buf v t { f with stale := f.stale || named buf }
  | x => x

theorem flagStale_none (x : Aperture) : x.flagStale (fun _ => false) = x := by
  cases x <;> simp [Aperture.flagStale]

theorem flagStale_flagStale (first second : BufId → Bool) (x : Aperture) :
    (x.flagStale first).flagStale second = x.flagStale fun buf => first buf || second buf := by
  cases x <;> simp [Aperture.flagStale, Bool.or_assoc]

theorem markStale_eq_flagStale (cur : Option BufId) (x : Aperture) :
    x.markStale cur = x.flagStale fun buf => decide (cur = some buf) := by
  cases x with
  | reading b buf v t f => by_cases h : cur = some buf <;> simp [Aperture.markStale, Aperture.flagStale, h]
  | closed | writing | orphaned => rfl

/-! ### The visits of a tick -/

/-- Whether the expiry of entry `x` at a tick of `n` flags the readers of buffer `buf`: it is CURRENT with that buffer (R97). -/
def Entry.stalesReadersOf (n : Half) (x : Entry) (buf : BufId) : Bool :=
  x.expiresAt n && decide (x.state = .current) && decide (x.current = some buf)

/-- The report that a tick of `n` makes at time `now` for entry `e`, found as `x`: none where it does not expire (R97, R98). -/
def Entry.expiryReport (n : Half) (now : Time) (e : EntryId) (x : Entry) : Option NuItem :=
  if x.expiresAt n then
    some (.entry { kind := .stale, entry := e, time := now, origin := none,
                   version := if x.state = .current then x.version else 0 })
  else none

section
variable (s : State) (n : Half)

theorem aperture_visitEntry (e : EntryId) (q : Port) (a : ApIdx) :
    (s.visitEntry n e).aperture q a = (s.aperture q a).flagStale ((s.entry e).stalesReadersOf n) := by
  unfold Entry.stalesReadersOf
  rcases visitEntry_cases s n e with ⟨hexp, hcur, h⟩ | ⟨hexp, hcur, h⟩ | ⟨hexp, h⟩ <;> rw [h]
  · simp [State.reportEntry, markStale_eq_flagStale, hexp, hcur]
  · simp [State.reportEntry, hcur, flagStale_none]
  · simp [hexp, flagStale_none]

theorem nuInput_visitEntry (e : EntryId) :
    (s.visitEntry n e).nuInput = s.nuInput ++ ((s.entry e).expiryReport n s.timeBase e).toList := by
  unfold Entry.expiryReport
  rcases visitEntry_cases s n e with ⟨hexp, hcur, h⟩ | ⟨hexp, hcur, h⟩ | ⟨hexp, h⟩ <;> rw [h]
  · simp [State.reportEntry, hexp, hcur]
  · simp [State.reportEntry, hexp, hcur]
  · simp [hexp]

theorem timeBase_visitEntry (e : EntryId) : (s.visitEntry n e).timeBase = s.timeBase := by rw [visitEntry_frame]

/-- A visit leaves the entries that a list without repeats visits later. -/
theorem entry_visitEntry_of_later {e : EntryId} {l : List EntryId} (hl : (e :: l).Nodup) :
    ∀ e' ∈ l, (s.visitEntry n e).entry e' = s.entry e' := fun e' he' => by
  rw [entry_visitEntry, if_neg]
  rintro rfl
  exact (List.nodup_cons.mp hl).1 he'

/-- Each visit of a list without repeats flags the readers of its own entry as the tick found it (R97). -/
theorem aperture_visits (l : List EntryId) (hl : l.Nodup) (q : Port) (a : ApIdx) :
    (l.foldl (State.visitEntry n) s).aperture q a =
      (s.aperture q a).flagStale fun buf => l.any fun e => (s.entry e).stalesReadersOf n buf := by
  induction l generalizing s with
  | nil => exact (flagStale_none _).symm
  | cons e l ih =>
    have hlater (buf : BufId) : (l.any fun e' => ((s.visitEntry n e).entry e').stalesReadersOf n buf) =
        l.any fun e' => (s.entry e').stalesReadersOf n buf := by
      rw [Bool.eq_iff_iff, List.any_eq_true, List.any_eq_true]
      exact exists_congr fun e' => and_congr_right fun he' => by rw [entry_visitEntry_of_later s n hl e' he']
    simp only [List.foldl_cons, ih _ hl.of_cons, hlater, aperture_visitEntry, flagStale_flagStale, List.any_cons]

/-- The visits of a list without repeats report the expiries of the entries as the tick found them, in the list's order (R99). -/
theorem nuInput_visits (l : List EntryId) (hl : l.Nodup) :
    (l.foldl (State.visitEntry n) s).nuInput =
      s.nuInput ++ l.filterMap fun e => (s.entry e).expiryReport n s.timeBase e := by
  induction l generalizing s with
  | nil => exact (List.append_nil _).symm
  | cons e l ih =>
    have hlater : (l.filterMap fun e' => ((s.visitEntry n e).entry e').expiryReport n s.timeBase e') =
        l.filterMap fun e' => (s.entry e').expiryReport n s.timeBase e' :=
      List.filterMap_congr fun e' he' => by rw [entry_visitEntry_of_later s n hl e' he']
    rw [List.foldl_cons, ih _ hl.of_cons, timeBase_visitEntry, hlater, nuInput_visitEntry, List.append_assoc]
    cases h : (s.entry e).expiryReport n s.timeBase e <;> simp [h]

end

/-! ### The tick's store event -/

section
variable {s : State}

theorem running_nodup (s : State) : s.running.Nodup := (List.nodup_finRange 512).filter _

theorem runs_of_expiresAt {n : Half} {x : Entry} (h : x.expiresAt n = true) : x.runs = true := ((expiresAt_iff n x).mp h).1

theorem expiresAt_owed (s : State) (e : EntryId) : (s.entry e).expiresAt s.owed = s.dueAt e := by
  have hpos : (s.entry e).countdown ≠ 0 ↔ 0 < (s.entry e).countdown.toNat := by
    rw [Nat.pos_iff_ne_zero, ne_eq, ne_eq, ← BitVec.toNat_inj]
    rfl
  simp only [Entry.expiresAt, Entry.runs, State.dueAt, hpos, BitVec.le_def]

/-- The tick makes its reports in ascending id, and only the entries that it expires have one (R99). -/
theorem nuInput_takeTick (s : State) :
    s.takeTick.nuInput =
      s.nuInput ++ (List.finRange 512).filterMap fun e => (s.entry e).expiryReport s.owed s.timeBase e := by
  rw [State.takeTick, nuInput_arbitrate, nuInput_visits _ _ _ (running_nodup s), State.running, List.filterMap_filter]
  refine congrArg (s.nuInput ++ ·) (List.filterMap_congr fun e _ => ?_)
  split
  · rfl
  · rename_i hruns
    exact (if_neg fun hexp => hruns (runs_of_expiresAt hexp)).symm

/-- The tick flags the readers that pin the buffer of a CURRENT entry that it expires (R97). -/
theorem aperture_takeTick (s : State) (q : Port) (a : ApIdx) :
    s.takeTick.aperture q a = (s.aperture q a).flagStale fun buf =>
      decide (∃ e, s.dueAt e = true ∧ (s.entry e).state = .current ∧ (s.entry e).current = some buf) := by
  rw [State.takeTick, aperture_arbitrate, aperture_visits _ _ _ (running_nodup s)]
  refine congrArg (Aperture.flagStale · (s.aperture q a)) (funext fun buf => Bool.eq_iff_iff.mpr ?_)
  simp only [List.any_eq_true, Entry.stalesReadersOf, Bool.and_eq_true, decide_eq_true_eq, ← expiresAt_owed]
  constructor
  · rintro ⟨e, -, ⟨hexp, hcur⟩, hbuf⟩
    exact ⟨e, hexp, hcur, hbuf⟩
  · rintro ⟨e, hexp, hcur, hbuf⟩
    exact ⟨e, List.mem_filter.mpr ⟨List.mem_finRange e, runs_of_expiresAt hexp⟩, ⟨hexp, hcur⟩, hbuf⟩

/-- What a tick of the owed count makes of an entry whose countdown it brings to 0 (R97, R98). -/
theorem entry_takeTick_of_dueAt {e : EntryId} (h : s.dueAt e = true) :
    s.takeTick.entry e = { s.entry e with
      state := if (s.entry e).state = .current then .stale else (s.entry e).state
      countdown := 0
      staleCount := if (s.entry e).staleCount = 0xFFFF then 0xFFFF else (s.entry e).staleCount + 1 } := by
  rw [entry_takeTick, Entry.visited, expiresAt_owed, if_pos h, saturatingSucc_half]

/-- A visit without an expiry lowers the countdown of an EMPTY or CURRENT entry by `n` at most down to 0 (R96). -/
theorem visited_of_not_expiresAt {n : Half} {x : Entry} (h : x.expiresAt n = false) :
    x.visited n =
      if x.state = .empty ∨ x.state = .current then { x with countdown := BitVec.ofNat 16 (x.countdown.toNat - n.toNat) }
      else x := by
  rw [Entry.visited, h, if_neg Bool.false_ne_true]
  by_cases hstate : x.state = .empty ∨ x.state = .current
  · rw [if_pos hstate]
    by_cases hzero : x.countdown = 0
    · have hstands : BitVec.ofNat 16 (x.countdown.toNat - n.toNat) = x.countdown := by simp [hzero]
      rw [if_neg fun hruns => ((runs_iff x).mp hruns).2 hzero, hstands]
    · have hruns : x.runs = true := (runs_iff x).mpr ⟨hstate, hzero⟩
      have hle : n ≤ x.countdown := BitVec.le_def.mpr (by
        by_contra hlt
        exact Bool.false_ne_true (h.symm.trans ((expiresAt_iff n x).mpr ⟨hruns, by omega⟩)))
      rw [if_pos hruns, ← BitVec.toNat_sub_of_le hle, BitVec.ofNat_toNat, BitVec.setWidth_eq]
  · rw [if_neg hstate, if_neg fun hruns => hstate ((runs_iff x).mp hruns).1]

/-- A tick changes the catalog, the readers' flags, the reports and the Freshness Monitor's request, and the arbiter then looks at
its requests (R95, R96, R160). -/
theorem takeTick_eq_arbitrate (s : State) :
    s.takeTick = State.arbitrate { s with
      owed := 0
      tickWaiting := false
      granted := none
      catalog := s.takeTick.catalog
      apertures := s.takeTick.apertures
      nuInput := s.takeTick.nuInput } := by
  have hvisits := visits_frame { s with owed := 0, tickWaiting := false, granted := none } s.owed s.running
  unfold State.takeTick
  generalize s.running.foldl _ _ = u at hvisits ⊢
  rw [show u.arbitrate.catalog = u.catalog by rw [arbitrate_frame], show u.arbitrate.apertures = u.apertures by rw [arbitrate_frame],
    nuInput_arbitrate, ← hvisits]

theorem exec_tick (hgrant : s.granted = some .tick) : exec .tick s = .next s.takeTick :=
  if_pos (decide_eq_true hgrant)

theorem tickExpires_eq_true {k : EntryState} (h : ∃ e, s.dueAt e = true ∧ (s.entry e).state = k) : s.tickExpires k = true := by
  obtain ⟨e, hdue, hstate⟩ := h
  exact List.any_eq_true.mpr ⟨e, List.mem_finRange e, by rw [expiresAt_owed, hdue, hstate]; simp⟩

/-- The rows of the expiries are the tick's store event where it holds such an expiry (log entry 3). -/
theorem exec_expiryRow {i : Instr} (hgrant : s.granted = some .tick)
    (hrow : i = .tick ∨
      i = .staleTransition ∧ (∃ e, s.dueAt e = true ∧ (s.entry e).state = .current) ∨
      i = .emptyExpiry ∧ ∃ e, s.dueAt e = true ∧ (s.entry e).state = .empty) :
    exec i s = .next s.takeTick := by
  have hgranted : s.tickGranted = true := decide_eq_true hgrant
  rcases hrow with rfl | ⟨rfl, hdue⟩ | ⟨rfl, hdue⟩
  · exact exec_tick hgrant
  · exact if_pos (by rw [hgranted, tickExpires_eq_true hdue]; rfl)
  · exact if_pos (by rw [hgranted, tickExpires_eq_true hdue]; rfl)

end

/-- Settles O4: each entry has been visited once, and the visits change nothing beside the catalog, the flags and the reports. -/
theorem tickLowersCountdownsByTheOwedCount : Obligations.TickLowersCountdownsByTheOwedCount := by
  intro s hgrant
  refine ⟨s.takeTick, exec_tick hgrant, fun e => ?_, takeTick_eq_arbitrate s⟩
  split
  · rename_i hdue
    exact entry_takeTick_of_dueAt hdue
  · rename_i hdue
    rw [← expiresAt_owed] at hdue
    rw [entry_takeTick, visited_of_not_expiresAt (eq_false_of_ne_true hdue)]

/-- Settles O5: the three rows are one event, whose expiries are those of the visits. -/
theorem expiriesOfTheTickInProgress : Obligations.ExpiriesOfTheTickInProgress := by
  intro s i hgrant hrow
  refine ⟨s.takeTick, exec_expiryRow hgrant hrow, exec_tick hgrant, fun e hdue hcur => ?_, fun e hdue hempty => ?_,
    fun q a => ?_, ?_⟩
  · rw [entry_takeTick_of_dueAt hdue, if_pos hcur]
  · rw [entry_takeTick_of_dueAt hdue, if_neg (by simp [hempty])]
  · rw [aperture_takeTick]
    cases s.aperture q a <;> rfl
  · simp only [nuInput_takeTick, Entry.expiryReport, expiresAt_owed]

end Sys2Proof.Machine
end

section
/-! PROOF. The Access Checker: translation by the lowest-indexed grant (O13), COMMAND_TRANSLATION (O12), SGR and RGR (O44). -/

namespace Sys2Proof.Machine

/-! ### The lowest-indexed grant that serves -/

/-- The first grant found is the one at the lowest index that serves; `S` says which grants serve, and `Q` what the answer `x` says
of a grant that does. -/
theorem map_find?_grants_eq_some {α : Type} {gs : Vector Grant 8} {serves : Grant → Bool} {f : Grant → α} {x : α}
    {S Q : Fin 8 → Prop} (hserves : ∀ i : Fin 8, serves gs[i] = true ↔ S i)
    (hanswer : ∀ i : Fin 8, serves gs[i] = true → (f gs[i] = x ↔ Q i)) :
    (gs.toList.find? serves).map f = some x ↔ ∃ i : Fin 8, S i ∧ Q i ∧ ∀ j : Fin 8, j < i → ¬S j := by
  simp only [← hserves, Vector.find?_toList, Option.map_eq_some_iff, Vector.find?_eq_some_iff_getElem, Bool.not_eq_true']
  constructor
  · rintro ⟨g, ⟨hg, i, hi, rfl, hbelow⟩, hx⟩
    exact ⟨⟨i, hi⟩, hg, (hanswer ⟨i, hi⟩ hg).mp hx, fun j hj => ne_true_of_eq_false (hbelow j hj)⟩
  · rintro ⟨i, hi, hq, hbelow⟩
    exact ⟨gs[i], ⟨hi, i.val, i.isLt, rfl, fun j hj => eq_false_of_ne_true (hbelow ⟨j, hj.trans i.isLt⟩ hj)⟩,
      (hanswer i hi).mpr hq⟩

/-! ### What one grant covers, and where it maps -/

section
variable {g : Grant}

theorem coversLocal_iff {l : LocalNo} : g.coversLocal l = true ↔
    g.enabled = true ∧ g.localBase.val ≤ l.toNat ∧ l.toNat < g.localBase.val + g.count.val := by
  simp [Grant.coversLocal, and_assoc]

theorem coversGlobal_iff {e : EntryId} : g.coversGlobal e = true ↔
    g.enabled = true ∧ g.globalBase.val ≤ e.val ∧ e.val < g.globalBase.val + g.count.val := by
  simp [Grant.coversGlobal, and_assoc]

/-- The runs of a legal enabled grant stay inside the two numberings (R106). -/
theorem Grant.Ok.runs_fit (h : g.Ok) (hg : g.enabled = true) :
    g.localBase.val + g.count.val ≤ 4096 ∧ g.globalBase.val + g.count.val ≤ 512 := by
  rw [Grant.Ok, if_pos hg] at h
  obtain ⟨-, hlocal, hglobal, -⟩ := h
  exact ⟨hlocal, hglobal⟩

/-- A legal grant does not wrap a local number of its run past the last global id. -/
theorem toGlobal_eq_iff (h : g.Ok) {l : LocalNo} (hl : g.coversLocal l = true) (e : EntryId) :
    g.toGlobal l = e ↔ e.val = g.globalBase.val + (l.toNat - g.localBase.val) := by
  obtain ⟨hg, hbase, hrun⟩ := coversLocal_iff.mp hl
  have hfits := (h.runs_fit hg).2
  rw [Fin.ext_iff, Grant.toGlobal, Fin.val_ofNat, Nat.mod_eq_of_lt (by omega), eq_comm]

/-- A legal grant does not wrap a global id of its run past the last local number. -/
theorem toLocal_eq_iff (h : g.Ok) {e : EntryId} (he : g.coversGlobal e = true) (l : LocalNo) :
    g.toLocal e = l ↔ l.toNat = g.localBase.val + (e.val - g.globalBase.val) := by
  obtain ⟨hg, hbase, hrun⟩ := coversGlobal_iff.mp he
  have hfits := (h.runs_fit hg).1
  rw [← BitVec.toNat_inj, Grant.toLocal, BitVec.toNat_ofNat, Nat.mod_eq_of_lt (by omega), eq_comm]

end

/-- Settles O13: both translations answer from the first grant found, and legality keeps its image from wrapping. -/
theorem translationTakesTheLowestGrant : Obligations.TranslationTakesTheLowestGrant := by
  intro gs hok
  refine ⟨fun l e r => ?_, fun e l => ?_⟩
  · have hanswer (i : Fin 8) (hi : gs[i].coversLocal l = true) : (gs[i].toGlobal l, gs[i].rights) = (e, r) ↔
        e.val = gs[i].globalBase.val + (l.toNat - gs[i].localBase.val) ∧ r = gs[i].rights := by
      rw [Prod.mk.injEq, toGlobal_eq_iff (hok i) hi, eq_comm (a := r)]
    exact (map_find?_grants_eq_some (fun i => coversLocal_iff) hanswer).trans (by simp only [and_assoc])
  · have hserves (i : Fin 8) : (gs[i].rights.read && gs[i].coversGlobal e) = true ↔ gs[i].enabled = true ∧
        gs[i].rights.read = true ∧ gs[i].globalBase.val ≤ e.val ∧ e.val < gs[i].globalBase.val + gs[i].count.val := by
      rw [Bool.and_eq_true, coversGlobal_iff, and_left_comm]
    have hanswer (i : Fin 8) (hi : (gs[i].rights.read && gs[i].coversGlobal e) = true) :=
      toLocal_eq_iff (hok i) (Bool.and_eq_true_iff.mp hi).2 l
    exact (map_find?_grants_eq_some hserves hanswer).trans (by simp only [and_assoc])

/-! ### COMMAND_TRANSLATION -/

/-- A command as the Access Checker passes it on, its local numbers answered under the grants `gs` (R110). -/
def Pending.translated (c : Pending) (gs : Vector Grant 8) : Pending :=
  { c with stage := c.req.stageAfterTranslation, answers := c.locals.map fun l => l.bind (translate gs) }

theorem answers_translated (c : Pending) (gs : Vector Grant 8) (a : ApIdx) :
    (c.translated gs).answers[a] = match c.locals[a] with | none => none | some l => translate gs l := by
  simp only [Pending.translated, Fin.getElem_fin, Vector.getElem_map]
  cases c.locals[a.val] <;> rfl

/-- What a translated command of port `p` puts in the Notification Unit's input order: a SUB itself, any other nothing (R110). -/
def subItems (p : Port) : Request → List NuItem
  | .sub _ _ _ => [.sub p]
  | _ => []

theorem toNotify_subItems (u : State) (p : Port) (r : Request) :
    (if r.stageAfterTranslation = .notify then u.toNotify (.sub p) else u) = { u with nuInput := u.nuInput ++ subItems p r } := by
  cases r with
  | sub l kinds coalesce => rfl
  | _ => exact congrArg (fun items => { u with nuInput := items }) (List.append_nil u.nuInput).symm

/-- The state in which the translated command has been passed on, before the arbiter looks at its requests. -/
def State.passedOn (s : State) (p : Port) (c : Pending) : State :=
  { s.updatePort p fun pi => { pi with slot := some (c.translated s.grants[p]) } with nuInput := s.nuInput ++ subItems p c.req }

theorem exec_commandTranslation {s : State} {p : Port} {c : Pending} (h : s.standsAt p c .translate) :
    exec (.commandTranslation p) s = .next (s.passedOn p c).arbitrate := by
  simp only [exec, execCommandTranslation, (commandAt_eq_some s p .translate c).mpr h, toNotify_subItems]
  rfl

theorem port_passedOn (s : State) (p : Port) (c : Pending) (q : Port) :
    (s.passedOn p c).port q = if p = q then { s.port p with slot := some (c.translated s.grants[p]) } else s.port q :=
  State.port_updatePort s p (fun pi => { pi with slot := some (c.translated s.grants[p]) }) q

/-- Settles O12: what the row leaves, by `exec_commandTranslation` and the frames of `State.passedOn` and of the arbiter. -/
theorem translationsAreMadeAtOneEvent : Obligations.TranslationsAreMadeAtOneEvent := by
  intro s p c hstands
  have hports : (s.passedOn p c).arbitrate.ports = (s.passedOn p c).ports := by rw [arbitrate_frame]
  refine ⟨_, c.translated s.grants[p], exec_commandTranslation hstands, rfl, rfl, rfl, answers_translated c _, ?_,
    fun q hne => ?_, ?_⟩
  · rw [port_arbitrate, port_passedOn, if_pos rfl]
  · rw [port_arbitrate, port_passedOn, if_neg hne.symm]
  · rw [hports]
    rfl

/-! ### SGR and RGR -/

theorem portOf_eq_some {b : Byte} {q : Port} (h : b.toNat = q.val) : portOf b = some q := by
  simp [portOf, h]

theorem grantIdxOf_eq_some {b : Byte} {i : GrantIdx} (h : b.toNat = i.val) : grantIdxOf b = some i := by
  simp [grantIdxOf, h]

/-- A count of 0 asks for the disabled grant, whatever the other parameters hold (R118). -/
theorem grantAsked_zero (localBase globalBase : Half) (rights : Rights) :
    grantAsked 0 localBase globalBase rights = some Grant.disabled := rfl

/-- The parameters of an SGR that R117 accepts ask for an enabled grant that holds them (R118). -/
theorem grantAsked_eq_some {count localBase globalBase : Half} {rights : Rights} {lb : Fin 4096} {n : Fin 513} {gb : EntryId}
    (hlb : localBase.toNat = lb.val) (hn : count.toNat = n.val) (hgb : globalBase.toNat = gb.val) (hpos : 1 ≤ n.val)
    (hlocal : lb.val + n.val ≤ 4096) (hglobal : gb.val + n.val ≤ 512) (hrights : (rights.read || rights.write) = true) :
    grantAsked count localBase globalBase rights =
      some { enabled := true, localBase := lb, count := n, globalBase := gb, rights := rights } := by
  have hcount : count ≠ 0 := by
    rintro rfl
    rw [← hn] at hpos
    exact absurd hpos (by decide)
  rw [grantAsked, if_neg hcount, dif_pos ⟨by omega, by omega, by omega⟩, if_pos ⟨by omega, by omega, hrights⟩]
  simp only [hlb, hn, hgb, Fin.eta]

section
variable {s : State} {p : Port} {c : Pending} {target index : Byte} {q : Port} {i : GrantIdx}

theorem replaceGrant_eq {count localBase globalBase : Half} {rights : Rights} {g : Grant} (hq : target.toNat = q.val)
    (hi : index.toNat = i.val) (hg : grantAsked count localBase globalBase rights = some g) :
    s.replaceGrant target index count localBase globalBase rights = (s.setGrant q i g, .ok, noResults) := by
  simp only [State.replaceGrant, portOf_eq_some hq, grantIdxOf_eq_some hi, hg]

/-- An accepted SGR writes the grant it asks for and completes OK (R118). -/
theorem exec_sgr_accepted (h : s.standsAt p c .access) {count localBase globalBase : Half} {rights : Rights} {g : Grant}
    (hreq : c.req = .sgr target index count localBase globalBase rights) (hq : target.toNat = q.val) (hi : index.toNat = i.val)
    (hg : grantAsked count localBase globalBase rights = some g) :
    exec (.sgr p) s = .next (State.complete (s.setGrant q i g) p .ok noResults) := by
  rw [exec_sgr h hreq, replaceGrant_eq hq hi hg]

theorem exec_rgr (h : s.standsAt p c .access) (hreq : c.req = .rgr target index) :
    exec (.rgr p) s =
      let r := s.readGrant target index
      .next (r.1.complete p r.2.1 r.2.2) := by
  obtain ⟨req, stage, locals, answers⟩ := c
  subst hreq
  simp only [exec, execRgr, (commandAt_eq_some s p .access _).mpr h]

theorem readGrant_badParam (h : 4 ≤ target.toNat ∨ 8 ≤ index.toNat) : s.readGrant target index = s.refuse .badParam := by
  unfold State.readGrant
  split
  · rename_i q i hq hi
    rcases h with h | h
    · simp [portOf, h] at hq
    · simp [grantIdxOf, h] at hi
  · rfl

theorem readGrant_eq (hq : target.toNat = q.val) (hi : index.toNat = i.val) :
    s.readGrant target index = (s, .ok, (s.grant q i).results) := by
  simp only [State.readGrant, portOf_eq_some hq, grantIdxOf_eq_some hi]

end

/-- The words of a grant as numbers (Table 10-5). -/
theorem grantResults_eq (g : Grant) :
    g.results = #v[BitVec.ofNat 32 (g.enabled.toNat + 256 * g.rights.read.toNat + 512 * g.rights.write.toNat),
      BitVec.ofNat 32 (g.localBase.val + 65536 * g.count.val), BitVec.ofNat 32 g.globalBase.val, 0, 0, 0, 0, 0, 0, 0] := by
  have hflags : 0#22 ++ bit g.rights.write ++ bit g.rights.read ++ 0#7 ++ bit g.enabled =
      BitVec.ofNat 32 (g.enabled.toNat + 256 * g.rights.read.toNat + 512 * g.rights.write.toNat) := by
    cases g.rights.write <;> cases g.rights.read <;> cases g.enabled <;> rfl
  have hbase : (BitVec.ofNat 16 g.localBase.val).toNat = g.localBase.val := Nat.mod_eq_of_lt (by omega)
  have hcount : (BitVec.ofNat 16 g.count.val).toNat = g.count.val := Nat.mod_eq_of_lt (by omega)
  have hglobal : (BitVec.ofNat 16 g.globalBase.val).toNat = g.globalBase.val := Nat.mod_eq_of_lt (by omega)
  rw [Grant.results, resultWords_eq, hflags, append_halves, append_halves, hbase, hcount, hglobal]
  rfl

/-- Settles O44: SGR by the grant that its parameters ask for, RGR by whether its fields name a grant. -/
theorem grantCommandsReplaceAndReturn : Obligations.GrantCommandsReplaceAndReturn := by
  intro s p c hstands
  refine ⟨fun target index count localBase globalBase rights q i hreq hq hi => ⟨?_, ?_⟩,
    fun target index hreq => ⟨fun hbad => ?_, fun q i hq hi => ?_⟩⟩
  · rintro rfl
    exact exec_sgr_accepted hstands hreq hq hi (grantAsked_zero localBase globalBase rights)
  · intro lb n gb hlb hn hgb hpos hlocal hglobal hrights
    exact exec_sgr_accepted hstands hreq hq hi (grantAsked_eq_some hlb hn hgb hpos hlocal hglobal hrights)
  · rw [exec_rgr hstands hreq, readGrant_badParam hbad]; rfl
  · rw [exec_rgr hstands hreq, readGrant_eq hq hi, grantResults_eq]

end Sys2Proof.Machine
end

section
/-! SUPPORT. How a ring changes: the changes that a step can make of one ring (R128 to R133, R136), and that each of them keeps
the ring legal (R128, R130). -/

namespace Sys2Proof.Machine

/-! ### The youngest PUBLISHED record of a local number -/

/-- A report folds into no record exactly when none is a PUBLISHED one of its local number (R129). -/
theorem coalesceInto_eq_none (l : LocalNo) (r : EntryReport) (xs : List Record) :
    coalesceInto l r xs = none ↔ ∀ y ∈ xs, y.coalescesWith l = false := by
  induction xs with
  | nil => simp [coalesceInto]
  | cons x xs ih =>
    rw [coalesceInto, List.forall_mem_cons, ← ih]
    cases hrest : coalesceInto l r xs with
    | some ys => simp
    | none => simp

theorem coalescesWith_iff {x : Record} {l : LocalNo} :
    x.coalescesWith l = true ↔ x.kind = .published ∧ x.localNo = some l := by
  simp [Record.coalescesWith]

/-! ### What the legality of a ring reads of a record -/

/-- The fields of a record that a fold leaves and the legality of a ring reads. -/
structure Stamp where
  seq : Half
  kind : RecordKind
  localNo : Option LocalNo
  viaCoalesce : Bool

def Record.stamp (x : Record) : Stamp :=
  { seq := x.seq, kind := x.kind, localNo := x.localNo, viaCoalesce := x.viaCoalesce }

/-- Both records were produced through a coalescing subscription for one local number (R130). -/
def Stamp.clashes (a b : Stamp) : Prop :=
  a.kind = .published ∧ b.kind = .published ∧ a.localNo = b.localNo ∧ a.viaCoalesce = true ∧ b.viaCoalesce = true

/-- A fold leaves a record's sequence, kind, local number and mark (R129). -/
theorem stamp_fold (x : Record) (rep : EntryReport) : (x.fold rep).stamp = x.stamp := rfl

theorem stamps_of_coalesceInto {l : LocalNo} {rep : EntryReport} {xs ys : List Record} (h : coalesceInto l rep xs = some ys) :
    ys.map Record.stamp = xs.map Record.stamp := by
  obtain ⟨l₁, x, l₂, rfl, -, -, rfl⟩ := (coalesceInto_eq_some l rep xs ys).mp h
  simp only [List.map_append, List.map_cons, stamp_fold]

/-! ### The changes of a ring -/

/-- What one step can make of a ring. -/
inductive RingChange (r : Ring) : Ring → Prop
  | stands : RingChange r r
  /-- A record appended to a ring that has room (R128). -/
  | pushed (x : Record) (room : r.records.length < 64) (apart : ∀ y ∈ r.records, ¬y.stamp.clashes x.stamp) :
    RingChange r (r.push x)
  /-- A report folded into the youngest record of its local number (R129). -/
  | folded (l : LocalNo) (rep : EntryReport) (ys : List Record) (into : coalesceInto l rep r.records = some ys) :
    RingChange r { r with records := ys }
  /-- The lost count raised by a discard or zeroed by a clear (R131, R132). -/
  | counted (lost : Half) : RingChange r { r with lost := lost }
  /-- The oldest record taken by the host (R133). -/
  | taken : RingChange r { r with records := r.records.tail }
  /-- The ring emptied by a teardown or a device reset (R136, R137). -/
  | cleared : RingChange r Ring.cleared

section
variable {r : Ring}

/-- Records with the same stamps behind the same counter are as legal. -/
theorem Ring.Ok.of_stamps (h : r.Ok) {ys : List Record} (hstamps : ys.map Record.stamp = r.records.map Record.stamp) :
    Ring.Ok { r with records := ys } := by
  have hlength : ys.length = r.records.length := by simpa using congrArg List.length hstamps
  have hseq : ∀ i (hi : i < ys.length), ys[i].seq = r.records[i].seq := fun i hi => by
    have hget := List.getElem_of_eq hstamps (by simpa using hi)
    rw [List.getElem_map, List.getElem_map] at hget
    exact congrArg Stamp.seq hget
  refine ⟨hlength ▸ h.size, fun i hi => ?_, ?_⟩
  · change ys[i].seq + BitVec.ofNat 16 (ys.length - i) = r.seq
    rw [hseq i hi, hlength, h.sequences i (hlength ▸ hi)]
  · have hpairs : (ys.map Record.stamp).Pairwise fun a b => ¬a.clashes b := hstamps ▸ List.pairwise_map.mpr h.coalesced
    exact List.pairwise_map.mp hpairs

/-- An appended record takes the counter's value, so the sequences stay consecutive (R128). -/
theorem Ring.Ok.push (h : r.Ok) {x : Record} (room : r.records.length < 64)
    (apart : ∀ y ∈ r.records, ¬y.stamp.clashes x.stamp) : (r.push x).Ok where
  size := by simp only [Ring.push, List.length_append, List.length_singleton]; omega
  sequences i hi := by
    simp only [Ring.push, List.length_append, List.length_singleton] at hi ⊢
    rcases Nat.lt_or_eq_of_le (Nat.le_of_lt_succ hi) with hlt | rfl
    · rw [List.getElem_append_left hlt, Nat.sub_add_comm hlt.le, BitVec.ofNat_add, ← BitVec.add_assoc, h.sequences i hlt]
      rfl
    · simp
  coalesced := by
    refine List.pairwise_append.mpr ⟨h.coalesced, List.pairwise_singleton _ _, fun y hy z hz => ?_⟩
    obtain rfl := List.mem_singleton.mp hz
    exact apart y hy

theorem Ring.Ok.tail (h : r.Ok) : Ring.Ok { r with records := r.records.tail } where
  size := (List.length_tail ▸ Nat.sub_le _ _ : r.records.tail.length ≤ _).trans h.size
  sequences i hi := by
    simp only [List.length_tail] at hi ⊢
    rw [List.getElem_tail, Nat.sub_sub, Nat.add_comm 1 i]
    exact h.sequences (i + 1) (by omega)
  coalesced := h.coalesced.sublist (List.tail_sublist _)

theorem ok_cleared : Ring.cleared.Ok := ⟨Nat.zero_le _, fun i hi => absurd hi (Nat.not_lt_zero i), .nil⟩

/-- Every change of a ring keeps it legal. -/
theorem RingChange.ok {r' : Ring} (hchange : RingChange r r') (h : r.Ok) : r'.Ok := by
  cases hchange with
  | stands => exact h
  | pushed x room apart => exact h.push room apart
  | folded l rep ys into => exact h.of_stamps (stamps_of_coalesceInto into)
  | counted lost => exact ⟨h.size, h.sequences, h.coalesced⟩
  | taken => exact h.tail
  | cleared => exact ok_cleared

end

end Sys2Proof.Machine
end

section
/-! SUPPORT. The routing of a report to the four ports: each port is served by itself (R126, R127), and what an appended and a
delivered record make of its ring. -/

namespace Sys2Proof.Machine

/-! ### What the routing leaves -/

/-- The state with the rings and the Port Interfaces blanked out, which are all that the routing of a record changes. -/
def State.besidesRouting (s : State) : State := { s with rings := State.reset.rings, ports := State.reset.ports }

theorem eq_of_besidesRouting {s t : State} (h : t.besidesRouting = s.besidesRouting) :
    t = { s with rings := t.rings, ports := t.ports } :=
  congrArg (fun u => { u with rings := t.rings, ports := t.ports }) h

section
variable (s : State)

@[simp] theorem besidesRouting_appendRecord (p : Port) (x : Record) :
    (s.appendRecord p x).besidesRouting = s.besidesRouting := by
  rw [appendRecord_frame]; rfl

@[simp] theorem besidesRouting_deliver (p : Port) (r : EntryReport) (l : LocalNo) :
    (s.deliver p r l).besidesRouting = s.besidesRouting := by
  unfold State.deliver
  dsimp only
  split
  · rfl
  · exact besidesRouting_appendRecord s p _

@[simp] theorem besidesRouting_routeEntry (r : EntryReport) (p : Port) :
    (s.routeEntry r p).besidesRouting = s.besidesRouting := by
  unfold State.routeEntry
  split
  · split
    · exact besidesRouting_deliver s p r _
    · rfl
  · rfl

@[simp] theorem besidesRouting_routePort (r : PortReport) (p : Port) :
    (s.routePort r p).besidesRouting = s.besidesRouting := by
  unfold State.routePort
  split
  · exact besidesRouting_appendRecord s p _
  · rfl

end

/-! ### One port at a time -/

/-- Two states that look the same to whatever serves port `p`: they differ in other ports' rings and Port Interfaces at most. -/
structure State.AgreeAt (p : Port) (s u : State) : Prop where
  ring : u.ring p = s.ring p
  port : u.port p = s.port p
  rest : u.besidesRouting = s.besidesRouting

section
variable {s u v : State} {p q : Port}

theorem State.AgreeAt.refl (p : Port) (s : State) : s.AgreeAt p s := ⟨rfl, rfl, rfl⟩

theorem State.AgreeAt.trans (h : s.AgreeAt p u) (h' : u.AgreeAt p v) : s.AgreeAt p v :=
  ⟨h'.ring.trans h.ring, h'.port.trans h.port, h'.rest.trans h.rest⟩

theorem State.AgreeAt.subscription (h : s.AgreeAt p u) (q : Port) (e : EntryId) : u.subscription q e = s.subscription q e :=
  (congrArg (·.subscription q e) h.rest :)

theorem State.AgreeAt.grants (h : s.AgreeAt p u) : u.grants = s.grants := (congrArg State.grants h.rest :)

theorem State.AgreeAt.setRing (h : s.AgreeAt p u) (x : Ring) : (s.setRing p x).AgreeAt p (u.setRing p x) where
  ring := by simp
  port := h.port
  rest := h.rest

theorem State.AgreeAt.updatePort (h : s.AgreeAt p u) (f : PortIf → PortIf) :
    (s.updatePort p f).AgreeAt p (u.updatePort p f) where
  ring := h.ring
  port := by simp [h.port]
  rest := h.rest

theorem State.AgreeAt.appendRecord (h : s.AgreeAt p u) (x : Record) : (s.appendRecord p x).AgreeAt p (u.appendRecord p x) := by
  unfold State.appendRecord
  rw [h.ring]
  dsimp only
  split <;> exact (h.setRing _).updatePort _

theorem State.AgreeAt.deliver (h : s.AgreeAt p u) (r : EntryReport) (l : LocalNo) :
    (s.deliver p r l).AgreeAt p (u.deliver p r l) := by
  unfold State.deliver
  rw [h.ring, h.subscription]
  dsimp only
  split
  · exact (h.setRing _).updatePort _
  · exact h.appendRecord _

theorem State.AgreeAt.routeEntry (h : s.AgreeAt p u) (r : EntryReport) : (s.routeEntry r p).AgreeAt p (u.routeEntry r p) := by
  unfold State.routeEntry State.isCandidate
  rw [h.port, h.subscription, h.grants]
  split
  · split
    · exact h.deliver r _
    · exact h
  · exact h

theorem State.AgreeAt.routePort (h : s.AgreeAt p u) (r : PortReport) : (s.routePort r p).AgreeAt p (u.routePort r p) := by
  unfold State.routePort
  rw [h.port]
  split
  · exact h.appendRecord _
  · exact h

/-! ### What serves one port leaves the others -/

theorem agreeAt_setRing (s : State) (hne : q ≠ p) (x : Ring) : s.AgreeAt q (s.setRing p x) where
  ring := by rw [State.ring_setRing, if_neg hne.symm]
  port := rfl
  rest := rfl

theorem agreeAt_updatePort (s : State) (hne : q ≠ p) (f : PortIf → PortIf) : s.AgreeAt q (s.updatePort p f) where
  ring := rfl
  port := by rw [State.port_updatePort, if_neg hne.symm]
  rest := rfl

theorem agreeAt_appendRecord (s : State) (hne : q ≠ p) (x : Record) : s.AgreeAt q (s.appendRecord p x) := by
  rcases appendRecord_cases s p x with ⟨-, h⟩ | ⟨-, h⟩ <;> rw [h] <;>
    exact (agreeAt_setRing s hne _).trans (agreeAt_updatePort _ hne _)

theorem agreeAt_deliver (s : State) (hne : q ≠ p) (r : EntryReport) (l : LocalNo) : s.AgreeAt q (s.deliver p r l) := by
  unfold State.deliver
  dsimp only
  split
  · exact (agreeAt_setRing s hne _).trans (agreeAt_updatePort _ hne _)
  · exact agreeAt_appendRecord s hne _

theorem agreeAt_routeEntry (s : State) (hne : q ≠ p) (r : EntryReport) : s.AgreeAt q (s.routeEntry r p) := by
  unfold State.routeEntry
  split
  · split
    · exact agreeAt_deliver s hne r _
    · exact .refl q s
  · exact .refl q s

theorem agreeAt_routePort (s : State) (hne : q ≠ p) (r : PortReport) : s.AgreeAt q (s.routePort r p) := by
  unfold State.routePort
  split
  · exact agreeAt_appendRecord s hne _
  · exact .refl q s

/-- Ports served one after another, each by itself: each is left as if it had been served alone. -/
theorem agreeAt_foldl {f : State → Port → State}
    (hown : ∀ (s u : State) (p : Port), s.AgreeAt p u → (f s p).AgreeAt p (f u p))
    (hother : ∀ (s : State) (p q : Port), q ≠ p → s.AgreeAt q (f s p)) {l : List Port} (hl : l.Nodup) (s : State) (q : Port) :
    (if q ∈ l then f s q else s).AgreeAt q (l.foldl f s) := by
  induction l generalizing s with
  | nil => exact .refl q s
  | cons p l ih =>
    obtain ⟨hp, hrest⟩ := List.nodup_cons.mp hl
    have hfold := ih hrest (f s p)
    by_cases hq : q = p
    · subst hq
      simpa [hp] using hfold
    · have hp : s.AgreeAt q (f s p) := hother s p q hq
      by_cases hmem : q ∈ l
      · simpa [hmem] using (hown s (f s p) q hp).trans (by simpa [hmem] using hfold)
      · simpa [hq, hmem] using hp.trans (by simpa [hmem] using hfold)

theorem agreeAt_foldl_allPorts {f : State → Port → State}
    (hown : ∀ (s u : State) (p : Port), s.AgreeAt p u → (f s p).AgreeAt p (f u p))
    (hother : ∀ (s : State) (p q : Port), q ≠ p → s.AgreeAt q (f s p)) (s : State) (q : Port) :
    (f s q).AgreeAt q (allPorts.foldl f s) := by
  have hmem : q ∈ allPorts := by revert q; decide
  simpa [hmem] using agreeAt_foldl hown hother (l := allPorts) (by decide) s q

end

/-! ### The reports at the head of the input order -/

section
variable {s : State} {rest : List NuItem}

/-- A report of an entry kind reaches each port as if it were routed to that port alone (R126). -/
theorem exec_entryReport {r : EntryReport} (h : s.nuInput = .entry r :: rest) :
    ∃ t, exec .entryReport s = .next t ∧ t = { s with nuInput := rest, rings := t.rings, ports := t.ports } ∧
      ∀ q, State.AgreeAt q (State.routeEntry { s with nuInput := rest } r q) t := by
  have hrest := foldl_keeps { s with nuInput := rest } State.besidesRouting (fun u p => u.routeEntry r p)
    (fun u p => besidesRouting_routeEntry u r p) allPorts
  exact ⟨_, by simp only [exec, execEntryReport, h], eq_of_besidesRouting hrest,
    agreeAt_foldl_allPorts (fun _ _ _ h => h.routeEntry r) (fun s _ _ hne => agreeAt_routeEntry s hne r) _⟩

/-- A report of a port or claim kind reaches each port as if it were routed to that port alone (R127). -/
theorem exec_portReport {r : PortReport} (h : s.nuInput = .port r :: rest) :
    ∃ t, exec .portReport s = .next t ∧ t = { s with nuInput := rest, rings := t.rings, ports := t.ports } ∧
      ∀ q, State.AgreeAt q (State.routePort { s with nuInput := rest } r q) t := by
  have hrest := foldl_keeps { s with nuInput := rest } State.besidesRouting (fun u p => u.routePort r p)
    (fun u p => besidesRouting_routePort u r p) allPorts
  exact ⟨_, by simp only [exec, execPortReport, h], eq_of_besidesRouting hrest,
    agreeAt_foldl_allPorts (fun _ _ _ h => h.routePort r) (fun s _ _ hne => agreeAt_routePort s hne r) _⟩

end

/-! ### What a record makes of a ring and its Port Interface -/

theorem not_hasLatch (pi : PortIf) (b : BitVec 7) : (!pi.hasLatch b) = decide (pi.latch &&& b = 0) := by
  by_cases h : pi.latch &&& b = 0 <;> simp [PortIf.hasLatch, h]

theorem raiseOverflow_eq (pi : PortIf) :
    pi.raiseOverflow =
      { pi with
        latch := pi.latch ||| bitOverflow
        overflowRaised := pi.overflowRaised || (decide (0 < pi.overflowClears) && decide (pi.latch &&& bitOverflow = 0)) } := by
  rw [PortIf.raiseOverflow, not_hasLatch]
  rfl

section
variable (s : State) (p : Port)

/-- A record is appended to its ring, or discarded where the ring is full (R128, R131). -/
theorem appended_appendRecord (x : Record) :
    Appended (s.ring p) (s.port p) x ((s.appendRecord p x).ring p) ((s.appendRecord p x).port p) := by
  rcases appendRecord_cases s p x with ⟨hroom, h⟩ | ⟨hfull, h⟩
  · refine .inl ⟨hroom, ?_, ?_⟩ <;> rw [h]
    · simp [Ring.push]
    · simp [PortIf.setLatch]
  · refine .inr ⟨hfull, ?_, ?_⟩ <;> rw [h]
    · simp [saturatingSucc_half]
    · rw [State.port_updatePort, if_pos rfl, State.setRing_port, raiseOverflow_eq]

theorem ringChange_appendRecord {x : Record} (apart : ∀ y ∈ (s.ring p).records, ¬y.stamp.clashes x.stamp) (q : Port) :
    RingChange (s.ring q) ((s.appendRecord p x).ring q) := by
  by_cases hq : q = p
  · subst hq
    rcases appendRecord_cases s q x with ⟨hroom, h⟩ | ⟨-, h⟩ <;> rw [h, State.updatePort_ring, State.ring_setRing, if_pos rfl]
    · exact .pushed x hroom apart
    · exact .counted _
  · rw [(agreeAt_appendRecord s hq x).ring]
    exact .stands

/-- A record that was not produced through a coalescing subscription clashes with none (R130). -/
theorem not_clashes_of_viaCoalesce {x : Record} (h : x.viaCoalesce = false) (y : Record) : ¬y.stamp.clashes x.stamp :=
  fun ⟨_, _, _, _, hvia⟩ => Bool.false_ne_true (h.symm.trans hvia)

/-- Whether a report reaches port `p` through a coalescing subscription: it is PUBLISHED, and the subscription says so (R129). -/
def State.coalescesFor (s : State) (p : Port) (r : EntryReport) : Bool :=
  decide (r.kind = .published) && (s.subscription p r.entry).coalesce

theorem deliver_of_coalesceInto {r : EntryReport} {l : LocalNo} {ys : List Record} (hvia : s.coalescesFor p r = true)
    (h : coalesceInto l r (s.ring p).records = some ys) :
    s.deliver p r l = (s.setRing p { s.ring p with records := ys }).updatePort p (·.setLatch bitNotify) := by
  unfold State.coalescesFor at hvia
  simp only [State.deliver, hvia, if_pos, h]

/-- A report without a record to fold into is appended (R128, R129). -/
theorem deliver_of_no_record {r : EntryReport} {l : LocalNo}
    (h : s.coalescesFor p r = true → coalesceInto l r (s.ring p).records = none) :
    s.deliver p r l = s.appendRecord p (r.record l (s.coalescesFor p r)) := by
  unfold State.coalescesFor at h ⊢
  simp only [State.deliver]
  split
  · rename_i ys hys
    split at hys
    · rename_i hvia
      exact absurd hys (by simp [h hvia])
    · cases hys
  · rfl

theorem ringChange_deliver (r : EntryReport) (l : LocalNo) : RingChange (s.ring p) ((s.deliver p r l).ring p) := by
  by_cases hfold : s.coalescesFor p r = true ∧ ∃ ys, coalesceInto l r (s.ring p).records = some ys
  · obtain ⟨hvia, ys, hys⟩ := hfold
    rw [deliver_of_coalesceInto s p hvia hys, State.updatePort_ring, State.ring_setRing, if_pos rfl]
    exact .folded l r ys hys
  · have hnone : s.coalescesFor p r = true → coalesceInto l r (s.ring p).records = none := fun hvia =>
      Option.eq_none_iff_forall_ne_some.mpr fun ys hys => hfold ⟨hvia, ys, hys⟩
    rw [deliver_of_no_record s p hnone]
    refine ringChange_appendRecord s p (fun y hy hclash => ?_) p
    obtain ⟨hpub, -, hlocal, -, hvia⟩ := hclash
    exact ne_true_of_eq_false ((coalesceInto_eq_none l r _).mp (hnone hvia) y hy) (coalescesWith_iff.mpr ⟨hpub, hlocal⟩)

theorem ringChange_routeEntry (r : EntryReport) : RingChange (s.ring p) ((s.routeEntry r p).ring p) := by
  unfold State.routeEntry
  split
  · split
    · exact ringChange_deliver s p r _
    · exact .stands
  · exact .stands

theorem viaCoalesce_record (r : PortReport) : r.record.viaCoalesce = false := by
  cases r <;> rfl

theorem ringChange_routePort (r : PortReport) : RingChange (s.ring p) ((s.routePort r p).ring p) := by
  unfold State.routePort
  split
  · exact ringChange_appendRecord s p (fun y _ => not_clashes_of_viaCoalesce (viaCoalesce_record r) y) p
  · exact .stands

end

end Sys2Proof.Machine
end

section
/-! SUPPORT. What a row can do to the rings, the command slots, the sessions and the Notification Unit's input order, said once:
`exec_course`. Invariants of these are read off it. -/

namespace Sys2Proof.Machine

/-! ### Reports and notices -/

/-- Whether an item of the input order is a report; the others are a port's own (R125). -/
def NuItem.isReport : NuItem → Bool
  | .entry _ | .port _ => true
  | .sub _ | .mark _ | .teardown _ => false

/-- From `s` to `t` nothing has happened to the rings, the command slots, the sessions and the input order, but that reports may
have been made. -/
structure Posted (s t : State) : Prop where
  rings : t.rings = s.rings
  slot : ∀ q, (t.port q).slot = (s.port q).slot
  session : ∀ q, (t.port q).session = (s.port q).session
  input : ∃ l, t.nuInput = s.nuInput ++ l ∧ ∀ x ∈ l, x.isReport = true

section
variable {s t u : State}

theorem Posted.refl (s : State) : Posted s s := ⟨rfl, fun _ => rfl, fun _ => rfl, [], (List.append_nil _).symm, nofun⟩

theorem Posted.trans (h : Posted s t) (h' : Posted t u) : Posted s u where
  rings := h'.rings.trans h.rings
  slot q := (h'.slot q).trans (h.slot q)
  session q := (h'.session q).trans (h.session q)
  input := by
    obtain ⟨l, hl, hreport⟩ := h.input
    obtain ⟨l', hl', hreport'⟩ := h'.input
    refine ⟨l ++ l', by rw [hl', hl, List.append_assoc], fun x hx => ?_⟩
    exact (List.mem_append.mp hx).elim (hreport x) (hreport' x)

/-- A change of other fields. -/
theorem Posted.of_eq (rings : t.rings = s.rings) (ports : t.ports = s.ports) (input : t.nuInput = s.nuInput) : Posted s t where
  rings := rings
  slot q := congrArg (fun v : Vector PortIf 4 => v[q].slot) ports
  session q := congrArg (fun v : Vector PortIf 4 => v[q].session) ports
  input := ⟨[], by rw [input, List.append_nil], nofun⟩

theorem Posted.after_eq (h : Posted t u) (rings : t.rings = s.rings) (ports : t.ports = s.ports)
    (input : t.nuInput = s.nuInput) : Posted s u :=
  (Posted.of_eq rings ports input).trans h

theorem posted_toNotify (s : State) {x : NuItem} (h : x.isReport = true) : Posted s (s.toNotify x) :=
  ⟨rfl, fun _ => rfl, fun _ => rfl, [x], rfl, by simpa using h⟩

theorem posted_updatePort (s : State) (p : Port) {f : PortIf → PortIf} (hslot : (f (s.port p)).slot = (s.port p).slot)
    (hsession : (f (s.port p)).session = (s.port p).session) : Posted s (s.updatePort p f) where
  rings := rfl
  slot q := by rw [State.port_updatePort]; split <;> simp_all
  session q := by rw [State.port_updatePort]; split <;> simp_all
  input := ⟨[], (List.append_nil _).symm, nofun⟩

theorem posted_mapPorts (s : State) {f : Port → PortIf → PortIf} (hslot : ∀ q pi, (f q pi).slot = pi.slot)
    (hsession : ∀ q pi, (f q pi).session = pi.session) : Posted s (s.mapPorts f) where
  rings := rfl
  slot q := by rw [State.port_mapPorts, hslot]
  session q := by rw [State.port_mapPorts, hsession]
  input := ⟨[], (List.append_nil _).symm, nofun⟩

theorem posted_arbitrate (s : State) : Posted s s.arbitrate :=
  .of_eq (by rw [arbitrate_frame]) (by rw [arbitrate_frame]) (nuInput_arbitrate s)

theorem posted_handCrossing (s : State) : Posted s s.handCrossing := posted_mapPorts s (fun _ _ => rfl) fun _ _ => rfl

theorem posted_reportEntry (s : State) (k : EntryKind) (e : EntryId) (v : Version) (t : Time) (origin : Option Port) :
    Posted s (s.reportEntry k e v t origin) :=
  posted_toNotify s rfl

theorem posted_expireMillisecond (s : State) : Posted s s.expireMillisecond :=
  (posted_arbitrate _).after_eq rfl rfl rfl

theorem posted_endStoreEvent (s u : State) : Posted u (s.endStoreEvent u) := by
  unfold State.endStoreEvent
  split
  · exact (posted_handCrossing _).after_eq rfl rfl rfl
  · exact .of_eq rfl rfl rfl

theorem posted_handPeerNotice (s : State) (p : Port) : Posted s (s.handPeerNotice p) :=
  posted_mapPorts s (fun _ _ => by split <;> rfl) fun _ _ => by split <;> rfl

theorem posted_moveClaim (s : State) (h : Option Port) (l : List Port) : Posted s (s.moveClaim h l) :=
  (Posted.of_eq rfl rfl rfl : Posted s { s with holder := h, waiters := l }).trans
    ((posted_toNotify _ rfl).trans (posted_mapPorts _ (fun _ _ => rfl) fun _ _ => rfl))

theorem posted_passClaim (s : State) : Posted s s.passClaim := by
  unfold State.passClaim
  split <;> exact posted_moveClaim s _ _

theorem posted_claim (s : State) (p : Port) (wait : Bool) : Posted s (s.claim p wait).1 := by
  unfold State.claim
  split_ifs
  · exact posted_moveClaim s _ _
  all_goals exact .of_eq rfl rfl rfl

theorem posted_release (s : State) (p : Port) : Posted s (s.release p).1 := by
  unfold State.release
  split_ifs
  · exact posted_passClaim s
  all_goals exact .of_eq rfl rfl rfl

theorem posted_releaseAtTeardown (s : State) (p : Port) : Posted s (s.releaseAtTeardown p) := by
  unfold State.releaseAtTeardown
  split_ifs
  · exact posted_passClaim s
  · exact .of_eq rfl rfl rfl

theorem posted_subscribe (s : State) (p : Port) (kinds : Kinds) (coalesce : Bool) (ans : Answer) :
    Posted s (s.subscribe p kinds coalesce ans).1 := by
  unfold State.subscribe
  split
  · exact .refl s
  · split <;> exact .of_eq rfl rfl rfl

theorem posted_replaceGrant (s : State) (target index : Byte) (count localBase globalBase : Half) (rights : Rights) :
    Posted s (s.replaceGrant target index count localBase globalBase rights).1 := by
  unfold State.replaceGrant
  split <;> exact .of_eq rfl rfl rfl

theorem posted_readGrant (s : State) (target index : Byte) : Posted s (s.readGrant target index).1 := by
  unfold State.readGrant
  split <;> exact .refl s

/-! ### The store's events make reports at most -/

theorem Posted.of_besidesPool (h : t.besidesPool = s.besidesPool) : Posted s t :=
  .of_eq (congrArg State.rings h :) (congrArg State.ports h :) (congrArg State.nuInput h :)

theorem posted_makeCurrent (s : State) (p : Port) (bind : Binding) (buf : BufId) : Posted s (s.makeCurrent p bind buf) := by
  rw [makeCurrent_eq, leaveCurrent_frame]
  exact (posted_reportEntry ..).after_eq rfl rfl rfl

theorem posted_publishMember (s : State) (p : Port) (retain : Bool) (a : ApIdx) : Posted s (s.publishMember p retain a) := by
  unfold State.publishMember
  split
  · exact (posted_makeCurrent s p _ _).trans (.of_besidesPool (besidesPool_endMember ..))
  · exact .refl s

theorem posted_foldl {α : Type} {f : State → α → State} (hf : ∀ u a, Posted u (f u a)) (l : List α) (s : State) :
    Posted s (l.foldl f s) := by
  induction l generalizing s with
  | nil => exact .refl s
  | cons a l ih => exact (hf s a).trans (ih (f s a))

theorem posted_defineEntry (s : State) (gid : Half) (length producer : Byte) (period grace : Half) :
    Posted s (s.defineEntry gid length producer period grace).1 := by
  unfold State.defineEntry
  split
  · dsimp only
    split
    · exact .refl s
    · exact (posted_reportEntry ..).after_eq rfl rfl rfl
  · exact .refl s

theorem posted_withdrawEntry (s : State) (gid : Half) : Posted s (s.withdrawEntry gid).1 := by
  cases he : entryOf gid with
  | none => simp only [State.withdrawEntry, he]; exact .refl s
  | some e =>
    by_cases hdef : (s.entry e).state = .undefined
    · simp only [State.withdrawEntry, he, if_pos hdef]; exact .refl s
    · rw [withdrawEntry_eq he hdef, withdrawn_frame]
      exact ⟨rfl, fun _ => rfl, fun _ => rfl, _, rfl, by simp [NuItem.isReport]⟩

theorem StoreAnswer.posted {p : Port} {i : Instr} {r : Answered} (hr : StoreAnswer s p i r) : Posted s r.1 := by
  cases hr with
  | ord mask locals ans =>
    unfold State.openRead
    split
    · exact .refl s
    · exact .of_besidesPool (foldl_keeps s State.besidesPool _ (by simp) _)
  | ref mask =>
    unfold State.refresh
    split
    · exact .refl s
    · exact .of_besidesPool (foldl_keeps s State.besidesPool _ (by simp) _)
  | owr l a zero ans =>
    unfold State.openWrite
    split
    · exact .refl s
    · exact .refl s
    · dsimp only
      split
      · exact .refl s
      · rename_i hu
        obtain ⟨rest, -, rfl⟩ := (allocate_eq_some _ _ _ _ _ _).mp hu
        exact .of_eq rfl rfl rfl
  | pub mask conditional retain ans =>
    unfold State.publish
    split
    · exact .refl s
    · split
      · exact .refl s
      · exact posted_foldl (fun u a => posted_publishMember u p retain a) _ s
  | cls mask => exact .of_besidesPool (besidesPool_closeAll s p _)
  | ins ans =>
    unfold State.inspect
    split
    · exact .refl s
    · split <;> exact .refl s
  | pst => exact .refl s
  | define gid length producer period grace => exact posted_defineEntry s gid length producer period grace
  | wdr gid => exact posted_withdrawEntry s gid
  | sfr gid period grace =>
    unfold State.setFreshness
    split
    · exact .refl s
    · dsimp only; split <;> exact .of_eq rfl rfl rfl
  | spt threshold =>
    unfold State.setThreshold
    split <;> exact .of_eq rfl rfl rfl

theorem posted_takeTick (s : State) : Posted s s.takeTick := by
  have hports : s.takeTick.ports = s.ports := by rw [takeTick_frame]
  refine ⟨by rw [takeTick_frame], fun q => congrArg (fun v : Vector PortIf 4 => v[q].slot) hports,
    fun q => congrArg (fun v : Vector PortIf 4 => v[q].session) hports, _, nuInput_takeTick s, fun x hx => ?_⟩
  obtain ⟨e, -, he⟩ := List.mem_filterMap.mp hx
  unfold Entry.expiryReport at he
  split at he <;> cases he
  rfl

theorem posted_microsecond (s : State) : Posted s s.microsecond := by
  unfold State.microsecond
  dsimp only
  split
  · exact (posted_expireMillisecond _).after_eq rfl rfl rfl
  · exact .of_eq rfl rfl rfl

/-! ### Host writes beside the command word and the take word -/

theorem posted_writePort (s : State) (p : Port) {f : PortIf → PortIf} (hslot : ∀ pi, (f pi).slot = pi.slot)
    (hsession : ∀ pi, (f pi).session = pi.session) : Posted s (s.writePort p f) := by
  unfold State.writePort
  split
  · exact .refl s
  · exact posted_updatePort s p (hslot _) (hsession _)

theorem posted_writeData (s : State) (p : Port) (a : ApIdx) (w : WordIdx) (v : Word) : Posted s (s.writeData p a w v) := by
  have hfault : ∀ code, Posted s (s.setPort p ((s.port p).latchFault code (some a))) := fun code =>
    posted_updatePort s p (f := fun pi => pi.latchFault code (some a)) rfl rfl
  unfold State.writeData
  dsimp only
  split
  · exact .refl s
  · split
    · exact hfault _
    · split
      · exact hfault _
      · exact hfault _
      all_goals split <;> exact .of_eq rfl rfl rfl

theorem slot_noticed (pi : PortIf) (b : BitVec 7) : (pi.noticed b).slot = pi.slot := by rw [noticed_eq]

theorem session_noticed (pi : PortIf) (b : BitVec 7) : (pi.noticed b).session = pi.session := by rw [noticed_eq]

/-! ### What a row can do -/

/-- What a row can make of the rings, the command slots, the sessions and the input order. -/
inductive Course (s : State) : State → Prop
  /-- Nothing, or reports made. -/
  | posts {t : State} (posted : Posted s t) : Course s t
  /-- A command that does not stand at the Notification Unit, and is no MRK, carried out by its owning block and
  completed (R157). -/
  | completes {u : State} (p : Port) (c : Pending) (st : Status) (rw : Results) (slot : (s.port p).slot = some c)
    (stage : c.stage ≠ .notify) (req : c.req ≠ .mrk) (posted : Posted s u) : Course s (u.complete p st rw)
  /-- A write of the command word (R156, R158). -/
  | writes (p : Port) (v : Word) : Course s (s.writeCommand p v)
  /-- A write of the take word (R133). -/
  | takes (p : Port) : Course s (s.takeRecord p)
  /-- A SUB at the head of the input order (R123). -/
  | subscribes {u : State} (p : Port) (rest : List NuItem) (c : Pending) (st : Status) (rw : Results)
    (input : s.nuInput = .sub p :: rest) (stands : s.standsAt p c .notify) (req : c.req ≠ .mrk)
    (posted : Posted { s with nuInput := rest } u) : Course s (u.complete p st rw)
  /-- An MRK at the head of the input order (R135). -/
  | marks (p : Port) (rest : List NuItem) (c : Pending) (st : Status) (rw : Results) (input : s.nuInput = .mark p :: rest)
    (stands : s.standsAt p c .notify) (req : c.req = .mrk) :
    Course s ((State.appendRecord { s with nuInput := rest } p (markRecord p s.timeBase)).complete p st rw)
  /-- A report of an entry kind at the head of the input order (R126). -/
  | routesEntry {t : State} (r : EntryReport) (rest : List NuItem) (input : s.nuInput = .entry r :: rest)
    (left : t.nuInput = rest) (each : ∀ q, State.AgreeAt q (State.routeEntry { s with nuInput := rest } r q) t) : Course s t
  /-- A report of a port or claim kind at the head of the input order (R127). -/
  | routesPort {t : State} (r : PortReport) (rest : List NuItem) (input : s.nuInput = .port r :: rest)
    (left : t.nuInput = rest) (each : ∀ q, State.AgreeAt q (State.routePort { s with nuInput := rest } r q) t) : Course s t
  /-- A clear of OVERFLOW (R132). -/
  | clearsOverflow (p : Port) :
    Course s ((s.setRing p { s.ring p with lost := 0 }).updatePort p PortIf.overflowCleared)
  /-- The translations of a command (R110). -/
  | translates (p : Port) (c : Pending) (stands : s.standsAt p c .translate) : Course s (s.passedOn p c).arbitrate
  /-- An ATT in UNATTACHED (R151). -/
  | attaches (p : Port) (session : (s.port p).session = .unattached) : Course s (s.attach p)
  /-- A DET in ATTACHED (R152). -/
  | detaches (p : Port) (c d : Pending) (stands : s.standsAt p c .atPort) (session : (s.port p).session = .attached)
    (req : c.req = .det) (req' : d.req = .det) (stage' : d.stage = .detach) :
    Course s (s.updatePort p fun pi => { pi with session := .teardown .store, slot := some d }).arbitrate
  /-- The presence input rises (R150). -/
  | rises (p : Port) : Course s (s.updatePort p PortIf.presenceRises)
  /-- The presence input falls (R150). -/
  | falls {t : State} (p : Port) (posted : Posted (s.updatePort p PortIf.presenceFalls) t) : Course s t
  /-- The teardown at SC (R68). -/
  | closes {u : State} (p : Port) (session : (s.port p).session = .teardown .store) (posted : Posted s u) :
    Course s (u.updatePort p fun pi => { pi with session := .teardown .claim }).arbitrate
  /-- The teardown at the Claim Unit (R146). -/
  | releases {u : State} (p : Port) (session : (s.port p).session = .teardown .claim) (posted : Posted s u) :
    Course s ((u.updatePort p fun pi => { pi with session := .teardown .notify }).toNotify (.teardown p))
  /-- The teardown at the Notification Unit (R136). -/
  | clears (p : Port) (rest : List NuItem) (subs : Vector (Vector Subscription 512) 4)
    (input : s.nuInput = .teardown p :: rest) (session : (s.port p).session = .teardown .notify) :
    Course s ((State.setRing { s with nuInput := rest, subs := subs } p Ring.cleared).updatePort p
      fun pi => { pi with session := .teardown .depart })
  /-- The end of a teardown (R154). -/
  | departs {u : State} (p : Port) (session : (s.port p).session = .teardown .depart) (posted : Posted s u) :
    Course s (u.updatePort p PortIf.endTeardown)
  /-- DEVICE_RESET (R166). -/
  | resets : Course s (.resetWith (s.ports.map fun pi => PortIf.afterReset pi.presence) s.pending)

theorem Course.idle : Course s s := .posts (.refl s)

/-- A command that stands at place `k` of its path completes. -/
theorem Course.of_commandAt {p : Port} {k : Stage} {c : Pending} (h : s.commandAt p k = some c) (hk : k ≠ .notify)
    (hreq : c.req ≠ .mrk) {r : Answered} (hr : Posted s r.1) : Course s (r.1.complete p r.2.1 r.2.2) := by
  obtain ⟨slot, stage⟩ := (commandAt_eq_some s p k c).mp h
  exact .completes p c _ _ slot (stage ▸ hk) hreq hr

/-- A command that SC takes completes with the end of its store event. -/
theorem Course.of_storeCommand {p : Port} {c : Pending} {i : Instr} {r : Answered} (h : s.storeCommand p = some c)
    (hreq : c.req ≠ .mrk) (hr : StoreAnswer s p i r) : Course s (s.finishStore p r) := by
  obtain ⟨-, slot, stage⟩ := (storeCommand_eq_some s p c).mp h
  exact .completes p c _ _ slot (stage ▸ nofun) hreq (hr.posted.trans (posted_endStoreEvent s r.1))

theorem course_writeWindowWord (s : State) (p : Port) (x : WindowWord) (v : Word) : Course s (s.writeWindowWord p x v) := by
  cases x with
  | command => exact .writes p v
  | take => exact .takes p
  | apData a w => exact .posts (posted_writeData s p a w v)
  | param _ | latch | mask | force => exact .posts (posted_writePort s p (fun _ => rfl) fun _ => rfl)
  | _ => exact .idle

theorem execSub_course {p : Port} (h : execSub p s = .next t) : Course s t := by
  unfold execSub at h
  split at h
  · rename_i hinput hcommand
    split at h
    · rename_i hq
      subst hq
      cases h
      exact .subscribes _ _ _ _ _ hinput ((commandAt_eq_some s _ .notify _).mp hcommand) nofun (posted_subscribe _ _ _ _ _)
    · cases h; exact .idle
  · cases h; exact .idle

theorem execMrk_course {p : Port} (h : execMrk p s = .next t) : Course s t := by
  unfold execMrk at h
  split at h
  · rename_i hinput hcommand
    split at h
    · rename_i hq
      subst hq
      cases h
      exact .marks _ _ _ _ _ hinput ((commandAt_eq_some s _ .notify _).mp hcommand) rfl
    · cases h; exact .idle
  · cases h; exact .idle

theorem execEntryReport_course (h : execEntryReport s = .next t) : Course s t := by
  cases hinput : s.nuInput with
  | nil => simp only [execEntryReport, hinput] at h; cases h; exact .idle
  | cons x rest =>
    cases x with
    | entry r =>
      obtain ⟨u, hu, hframe, heach⟩ := exec_entryReport hinput
      obtain rfl := Host.Outcome.next.inj (h.symm.trans hu)
      exact .routesEntry r rest hinput (by rw [hframe]) heach
    | _ => simp only [execEntryReport, hinput] at h; cases h; exact .idle

theorem execPortReport_course (h : execPortReport s = .next t) : Course s t := by
  cases hinput : s.nuInput with
  | nil => simp only [execPortReport, hinput] at h; cases h; exact .idle
  | cons x rest =>
    cases x with
    | port r =>
      obtain ⟨u, hu, hframe, heach⟩ := exec_portReport hinput
      obtain rfl := Host.Outcome.next.inj (h.symm.trans hu)
      exact .routesPort r rest hinput (by rw [hframe]) heach
    | _ => simp only [execPortReport, hinput] at h; cases h; exact .idle

theorem execTeardown_course {p : Port}
    (h : execTeardownSc p s = .next t ∨ execTeardownCu p s = .next t ∨ execTeardownNu p s = .next t) : Course s t := by
  rcases h with h | h | h
  · unfold execTeardownSc at h
    split at h <;> cases h
    · rename_i hturn
      exact .closes p hturn.2 ((Posted.of_besidesPool (besidesPool_closeAll s p _)).trans (posted_endStoreEvent s _))
    · exact .idle
  · unfold execTeardownCu at h
    split at h <;> cases h
    · rename_i hsession
      exact .releases p hsession (posted_releaseAtTeardown s p)
    · exact .idle
  · unfold execTeardownNu at h
    split at h
    · rename_i hinput
      split at h <;> cases h
      · rename_i hturn
        obtain ⟨rfl, hsession⟩ := hturn
        exact .clears _ _ _ hinput hsession
      · exact .idle
    · cases h; exact .idle

theorem execDeparture_course {p : Port} (h : execDeparture p s = .next t) : Course s t := by
  unfold execDeparture at h
  split at h <;> cases h
  · rename_i hsession
    exact .departs p hsession ((posted_toNotify s rfl).trans (posted_handPeerNotice _ p))
  · exact .idle

theorem execAtt_course {p : Port} (h : execAtt p s = .next t) : Course s t := by
  unfold execAtt at h
  split at h
  · rename_i hcommand
    cases h
    split
    · rename_i hsession
      exact .attaches p hsession
    · exact .of_commandAt (r := (s, _, _)) hcommand nofun nofun (.refl s)
  · cases h; exact .idle

theorem execDet_course {p : Port} (h : execDet p s = .next t) : Course s t := by
  unfold execDet at h
  split at h
  · rename_i hcommand
    split at h <;> cases h
    · rename_i hsession
      exact .detaches p _ _ ((commandAt_eq_some s p .atPort _).mp hcommand) hsession rfl rfl rfl
    · exact .of_commandAt (r := (s, _, _)) hcommand nofun nofun (.refl s)
  · cases h; exact .idle

theorem execCommandTranslation_course {p : Port} (h : execCommandTranslation p s = .next t) : Course s t := by
  cases hcommand : s.commandAt p .translate with
  | none => simp only [execCommandTranslation, hcommand] at h; cases h; exact .idle
  | some c =>
    have hstands := (commandAt_eq_some s p .translate c).mp hcommand
    obtain rfl := Host.Outcome.next.inj (h.symm.trans (exec_commandTranslation hstands))
    exact .translates p c hstands

theorem execPresenceDeasserted_course {p : Port} (h : execPresenceDeasserted p s = .next t) : Course s t := by
  cases h
  refine .falls p ?_
  split
  · exact posted_arbitrate _
  · exact .refl _

/-- Every row of the table takes one of these courses. -/
theorem exec_course {i : Instr} (h : exec i s = .next t) : Course s t := by
  cases i with
  | nop p | badCommand p | rtm p =>
    simp only [exec, execNop, execBadCommand, execRtm] at h
    split at h <;> cases h
    · rename_i hcommand
      exact .of_commandAt (r := (s, _, _)) hcommand nofun nofun (.refl s)
    · exact .idle
  | sgr p =>
    simp only [exec, execSgr] at h
    split at h <;> cases h
    · rename_i hcommand
      exact .of_commandAt hcommand nofun nofun (posted_replaceGrant ..)
    · exact .idle
  | rgr p =>
    simp only [exec, execRgr] at h
    split at h <;> cases h
    · rename_i hcommand
      exact .of_commandAt hcommand nofun nofun (posted_readGrant ..)
    · exact .idle
  | cla p =>
    simp only [exec, execCla] at h
    split at h <;> cases h
    · rename_i hcommand
      exact .of_commandAt (r := (_, _, _)) hcommand nofun nofun (posted_claim s p _)
    · exact .idle
  | rel p =>
    simp only [exec, execRel] at h
    split at h <;> cases h
    · rename_i hcommand
      exact .of_commandAt (r := (_, _, _)) hcommand nofun nofun (posted_release s p)
    · exact .idle
  | ord p | ref p | owr p | pub p | cls p | ins p | pst p | define p | wdr p | sfr p | spt p =>
    simp only [exec, execOrd, execRef, execOwr, execPub, execCls, execIns, execPst, execDefine, execWdr, execSfr, execSpt] at h
    split at h <;> cases h
    · rename_i hcommand
      exact .of_storeCommand hcommand nofun (by constructor)
    · exact .idle
  | sub p => exact execSub_course h
  | mrk p => exact execMrk_course h
  | entryReport => exact execEntryReport_course h
  | portReport => exact execPortReport_course h
  | att p => exact execAtt_course h
  | det p => exact execDet_course h
  | commandTranslation p => exact execCommandTranslation_course h
  | teardownSc p => exact execTeardown_course (.inl h)
  | teardownCu p => exact execTeardown_course (.inr (.inl h))
  | teardownNu p => exact execTeardown_course (.inr (.inr h))
  | departure p => exact execDeparture_course h
  | presenceAsserted p => cases h; exact .rises p
  | presenceDeasserted p => exact execPresenceDeasserted_course h
  | deviceReset =>
    obtain rfl := Host.Outcome.next.inj ((exec_deviceReset s).symm.trans h)
    exact .resets
  | overflowClear p =>
    simp only [exec, execOverflowClear] at h
    split at h <;> cases h
    · exact .idle
    · exact .clearsOverflow p
  | commandArrival p v | commandOverrun p v => cases h; exact .writes p v
  | take p v => cases h; exact .takes p
  | dataWordWrite p a w v => cases h; exact .posts (posted_writeData s p a w v)
  | windowWrite p offset v => cases h; exact course_writeWindowWord s p _ v
  | latchWord p v | maskWord p v | forceWord p v => cases h; exact .posts (posted_writePort s p (fun _ => rfl) fun _ => rfl)
  | peerNotice p | claimMove p =>
    simp only [exec, execPeerNotice, execClaimMove] at h
    split at h <;> cases h
    · exact .posts (posted_updatePort s p (slot_noticed _ _) (session_noticed _ _))
    · exact .idle
  | crossing p =>
    simp only [exec, execCrossing] at h
    split at h <;> cases h
    · exact .idle
    · exact .posts (posted_updatePort s p (slot_noticed _ _) (session_noticed _ _))
  | millisecondExpiry => cases h; exact .posts ((posted_expireMillisecond _).after_eq rfl rfl rfl)
  | tick | staleTransition | emptyExpiry =>
    simp only [exec, execTick, execStaleTransition, execEmptyExpiry] at h
    split at h <;> injection h with h <;> subst h
    · exact .posts (posted_takeTick s)
    · exact .idle

end

end Sys2Proof.Machine
end

section
/-! PROOF. Every step keeps every ring legal (O52): each course of a row makes one change of each ring. -/

namespace Sys2Proof.Machine

section
variable {s t : State}

theorem ring_arbitrate (s : State) (q : Port) : s.arbitrate.ring q = s.ring q := by
  unfold State.ring; rw [arbitrate_frame]

theorem ring_complete (s : State) (p : Port) (st : Status) (rw : Results) (q : Port) :
    (s.complete p st rw).ring q = s.ring q := by
  unfold State.ring; rw [complete_frame]

theorem Posted.ring (h : Posted s t) (q : Port) : t.ring q = s.ring q := congrArg (fun v : Vector Ring 4 => v[q]) h.rings

theorem RingChange.of_eq {r r' : Ring} (h : r' = r) : RingChange r r' := h ▸ .stands

theorem RingChange.of_setRing {p : Port} {r : Ring} (h : RingChange (s.ring p) r) (q : Port) :
    RingChange (s.ring q) ((s.setRing p r).ring q) := by
  rw [State.ring_setRing]
  split
  · rename_i hq
    exact hq ▸ h
  · exact .stands

theorem ringChange_takeRecord (s : State) (p q : Port) : RingChange (s.ring q) ((s.takeRecord p).ring q) := by
  unfold State.takeRecord
  split
  · exact .stands
  · exact RingChange.of_setRing .taken q

theorem ring_takeSlot (s : State) (p : Port) (req : Request) (q : Port) : (s.takeSlot p req).ring q = s.ring q := by
  unfold State.takeSlot
  rw [ring_arbitrate]
  split <;> rfl

theorem ring_writeCommand (s : State) (p : Port) (v : Word) (q : Port) : (s.writeCommand p v).ring q = s.ring q := by
  unfold State.writeCommand State.arrive State.completeNow
  dsimp only
  split
  · rfl
  · split
    · rfl
    · split
      · rfl
      · split
        · rw [ring_takeSlot]; rfl
        · rfl
      · rfl
      · split
        · rfl
        · rw [ring_takeSlot]; rfl

theorem Course.ringChange (h : Course s t) (q : Port) : RingChange (s.ring q) (t.ring q) := by
  cases h with
  | posts posted => exact .of_eq (posted.ring q)
  | completes p c st rw _ _ _ posted => exact .of_eq ((ring_complete _ p st rw q).trans (posted.ring q))
  | writes p v => exact .of_eq (ring_writeCommand s p v q)
  | takes p => exact ringChange_takeRecord s p q
  | subscribes p rest c st rw _ _ _ posted => exact .of_eq ((ring_complete _ p st rw q).trans (posted.ring q))
  | marks p rest c st rw =>
    rw [ring_complete]
    exact ringChange_appendRecord { s with nuInput := rest } p (fun y _ => not_clashes_of_viaCoalesce rfl y) q
  | routesEntry r rest _ _ each =>
    rw [(each q).ring]
    exact ringChange_routeEntry { s with nuInput := rest } q r
  | routesPort r rest _ _ each =>
    rw [(each q).ring]
    exact ringChange_routePort { s with nuInput := rest } q r
  | clearsOverflow p => exact RingChange.of_setRing (.counted 0) q
  | clears p rest subs => exact RingChange.of_setRing (s := { s with nuInput := rest, subs := subs }) .cleared q
  | translates p | detaches p => exact .of_eq (ring_arbitrate _ q)
  | closes p _ posted => exact .of_eq ((ring_arbitrate _ q).trans (posted.ring q))
  | releases p _ posted | departs p _ posted | falls p posted => exact .of_eq (posted.ring q)
  | attaches p | rises p => exact .of_eq rfl
  | resets =>
    rw [ring_resetWith]
    exact .cleared

/-- Settles O52: every row takes a course, a course makes one change of each ring, and every change keeps a ring legal. -/
theorem everyStepKeepsTheRingInvariant : Obligations.EveryStepKeepsTheRingInvariant := by
  intro s t hok hstep q
  unfold step at hstep
  split at hstep
  · obtain rfl := Host.Outcome.next.inj hstep
    rw [(posted_microsecond s).ring]
    exact hok q
  · exact ((exec_course hstep).ringChange q).ok (hok q)

end

end Sys2Proof.Machine
end

section
/-! PROOF. Every step keeps the Notification Unit's input order in agreement with the ports (O56), one port at a time. -/

namespace Sys2Proof.Machine

/-! ### One port's items -/

/-- The port whose own item this is: its SUB, its MRK or its teardown request (R125). -/
def NuItem.owner : NuItem → Option Port
  | .entry _ | .port _ => none
  | .sub p | .mark p | .teardown p => some p

theorem owner_of_isReport {x : NuItem} (h : x.isReport = true) : x.owner = none := by
  cases x with
  | entry _ | port _ => rfl
  | _ => cases h

/-- Whether a port waits for the Notification Unit to take such an item of its own (R157, R154). -/
def PortIf.awaits (pi : PortIf) : NuItem → Bool
  | .sub _ => pi.subWaits
  | .mark _ => pi.markWaits
  | .teardown _ => decide (pi.session = .teardown .notify)
  | .entry _ | .port _ => false

/-- An input order holds each item of port `p` once where the port awaits it, and not at all otherwise. -/
def InputOkAt (input : List NuItem) (p : Port) (pi : PortIf) : Prop :=
  ∀ x : NuItem, x.owner = some p → input.count x = (pi.awaits x).toNat

theorem inputOk_iff (s : State) : s.InputOk ↔ ∀ p, InputOkAt s.nuInput p (s.port p) := by
  have htoNat : ∀ b : Bool, (if b = true then 1 else 0) = b.toNat := fun b => by cases b <;> rfl
  constructor
  · intro h p x hx
    cases x with
    | entry _ | port _ => cases hx
    | sub q => cases hx; exact (h.subs p).trans (htoNat _)
    | mark q => cases hx; exact (h.marks p).trans (htoNat _)
    | teardown q => cases hx; exact (h.teardowns p).trans (by simp [PortIf.awaits, Bool.toNat])
  · intro h
    refine ⟨fun p => (h p (.sub p) rfl).trans (htoNat _).symm, fun p => (h p (.mark p) rfl).trans (htoNat _).symm, fun p => ?_⟩
    exact (h p (.teardown p) rfl).trans (by simp [PortIf.awaits, Bool.toNat])

section
variable {l l' : List NuItem} {p : Port} {pi pi' : PortIf} {x : NuItem}

theorem InputOkAt.congr (h : InputOkAt l p pi) (hcount : ∀ y : NuItem, y.owner = some p → l'.count y = l.count y)
    (hawaits : ∀ y, pi'.awaits y = pi.awaits y) : InputOkAt l' p pi' := fun y hy => by
  rw [hcount y hy, h y hy, hawaits]

/-- An item that the port begins to await joins the input order. -/
theorem InputOkAt.enter (h : InputOkAt l p pi) (hbefore : pi.awaits x = false) (hafter : pi'.awaits x = true)
    (hawaits : ∀ y, y ≠ x → y.owner = some p → pi'.awaits y = pi.awaits y) : InputOkAt (l ++ [x]) p pi' := by
  intro y hy
  rw [List.count_append, h y hy]
  by_cases hyx : y = x
  · subst hyx
    simp [hbefore, hafter]
  · simp [hawaits y hyx hy, Ne.symm hyx]

/-- The item at the head, taken, is awaited no longer. -/
theorem InputOkAt.leave (h : InputOkAt (x :: l) p pi) (hx : x.owner = some p) (hafter : pi'.awaits x = false)
    (hawaits : ∀ y, y ≠ x → y.owner = some p → pi'.awaits y = pi.awaits y) : InputOkAt l p pi' := by
  intro y hy
  by_cases hyx : y = x
  · subst hyx
    have hcount := h y hy
    have hle := Bool.toNat_le (pi.awaits y)
    rw [List.count_cons_self] at hcount
    rw [hafter, Bool.toNat_false]
    omega
  · have hcount := h y hy
    rw [List.count_cons_of_ne (Ne.symm hyx)] at hcount
    rw [hcount, hawaits y hyx hy]

end

/-- Reports leave the count of every port's own items. -/
theorem count_append_reports {l l' : List NuItem} (h : ∀ x ∈ l', x.isReport = true) {p : Port} {y : NuItem}
    (hy : y.owner = some p) : (l ++ l').count y = l.count y := by
  have hnone : y ∉ l' := fun hmem => Option.some_ne_none p (hy.symm.trans (owner_of_isReport (h y hmem)))
  rw [List.count_append, List.count_eq_zero_of_not_mem hnone, Nat.add_zero]

/-! ### What a port awaits -/

section
variable {pi pi' : PortIf} {c : Pending}

theorem awaits_congr (hsub : pi'.subWaits = pi.subWaits) (hmark : pi'.markWaits = pi.markWaits)
    (hteardown : pi'.session = .teardown .notify ↔ pi.session = .teardown .notify) {y : NuItem} :
    pi'.awaits y = pi.awaits y := by
  cases y with
  | entry _ | port _ => rfl
  | sub _ => exact hsub
  | mark _ => exact hmark
  | teardown _ => exact decide_eq_decide.mpr hteardown

theorem subWaits_of_slot (h : pi.slot = some c) : pi.subWaits = decide (c.stage = .notify ∧ c.req ≠ .mrk) := by
  simp only [PortIf.subWaits, h]

theorem markWaits_of_slot (h : pi.slot = some c) : pi.markWaits = decide (c.req = .mrk) := by
  simp only [PortIf.markWaits, h]

theorem subWaits_of_ready (h : pi.slot = none) : pi.subWaits = false := by
  simp only [PortIf.subWaits, h]

theorem markWaits_of_ready (h : pi.slot = none) : pi.markWaits = false := by
  simp only [PortIf.markWaits, h]

theorem awaits_of_same_place (hslot : pi'.slot = pi.slot) (hsession : pi'.session = pi.session) {y : NuItem} :
    pi'.awaits y = pi.awaits y :=
  awaits_congr (by rw [PortIf.subWaits, hslot]; rfl) (by rw [PortIf.markWaits, hslot]; rfl) (by rw [hsession])

/-- The slot holds no command that stands in the input order: none at all, or one at another block's place that is no MRK. -/
def PortIf.SlotElsewhere (pi : PortIf) : Prop := pi.subWaits = false ∧ pi.markWaits = false

theorem slotElsewhere_of_ready (h : pi.slot = none) : pi.SlotElsewhere := ⟨subWaits_of_ready h, markWaits_of_ready h⟩

theorem slotElsewhere_of_slot (h : pi.slot = some c) (hstage : c.stage ≠ .notify) (hreq : c.req ≠ .mrk) : pi.SlotElsewhere :=
  ⟨by simp [subWaits_of_slot h, hstage], by simp [markWaits_of_slot h, hreq]⟩

/-- Where neither slot holds such a command, only the step of the teardown counts. -/
theorem awaits_of_elsewhere (h' : pi'.SlotElsewhere) (h : pi.SlotElsewhere)
    (hteardown : pi'.session = .teardown .notify ↔ pi.session = .teardown .notify) {y : NuItem} :
    pi'.awaits y = pi.awaits y :=
  awaits_congr (h'.1.trans h.1.symm) (h'.2.trans h.2.symm) hteardown

end

/-! ### The shared operations -/

section
variable {s t : State} {p : Port}

theorem Posted.awaits (h : Posted s t) (q : Port) (y : NuItem) : (t.port q).awaits y = (s.port q).awaits y :=
  awaits_of_same_place (h.slot q) (h.session q)

theorem Posted.count (h : Posted s t) {q : Port} {y : NuItem} (hy : y.owner = some q) :
    t.nuInput.count y = s.nuInput.count y := by
  obtain ⟨l, hl, hreports⟩ := h.input
  rw [hl, count_append_reports hreports hy]

theorem State.InputOk.kept (h : s.InputOk) (hcount : ∀ q y, NuItem.owner y = some q → t.nuInput.count y = s.nuInput.count y)
    (hawaits : ∀ q y, (t.port q).awaits y = (s.port q).awaits y) : t.InputOk :=
  (inputOk_iff t).mpr fun q => ((inputOk_iff s).mp h q).congr (hcount q) (hawaits q)

theorem State.InputOk.posted (h : s.InputOk) (hposted : Posted s t) : t.InputOk :=
  h.kept (fun _ _ => hposted.count) hposted.awaits

theorem State.InputOk.updatePort (h : s.InputOk) {f : PortIf → PortIf}
    (hawaits : ∀ y, (f (s.port p)).awaits y = (s.port p).awaits y) : (s.updatePort p f).InputOk := by
  refine h.kept (fun _ _ _ => rfl) fun q y => ?_
  rw [State.port_updatePort]
  split
  · rename_i hq
    exact hq ▸ hawaits y
  · rfl

/-- A port's own item joins the input order as the port begins to await it. -/
theorem State.InputOk.enter (h : s.InputOk) {x : NuItem} (hx : x.owner = some p) {f : PortIf → PortIf}
    (hbefore : (s.port p).awaits x = false) (hafter : (f (s.port p)).awaits x = true)
    (hawaits : ∀ y, y ≠ x → y.owner = some p → (f (s.port p)).awaits y = (s.port p).awaits y) :
    ((s.updatePort p f).toNotify x).InputOk := by
  refine (inputOk_iff _).mpr fun q => ?_
  have hq := (inputOk_iff s).mp h q
  rw [State.toNotify_port, State.port_updatePort]
  split
  · rename_i hpq
    subst hpq
    exact hq.enter hbefore hafter hawaits
  · rename_i hpq
    refine hq.congr (fun y hy => ?_) fun _ => rfl
    have hne : x ≠ y := fun hxy => hpq (Option.some.inj (hx.symm.trans (hxy ▸ hy)))
    simp [hne]

/-- A port's own item, taken at the head of the input order, is awaited no longer. -/
theorem State.InputOk.leave (h : s.InputOk) {x : NuItem} {rest : List NuItem} (hinput : s.nuInput = x :: rest)
    (hx : x.owner = some p) (hcount : ∀ q y, NuItem.owner y = some q → t.nuInput.count y = rest.count y)
    (hother : ∀ q y, q ≠ p → (t.port q).awaits y = (s.port q).awaits y) (hafter : (t.port p).awaits x = false)
    (hawaits : ∀ y, y ≠ x → y.owner = some p → (t.port p).awaits y = (s.port p).awaits y) : t.InputOk := by
  refine (inputOk_iff _).mpr fun q => ?_
  have hq := hinput ▸ (inputOk_iff s).mp h q
  by_cases hpq : q = p
  · subst hpq
    exact (hq.leave hx hafter hawaits).congr (hcount q) fun _ => rfl
  · refine hq.congr (fun y hy => ?_) fun y => hother q y hpq
    have hne : x ≠ y := fun hxy => hpq (Option.some.inj (hy.symm.trans (hxy ▸ hx)))
    rw [hcount q y hy, List.count_cons_of_ne hne]

/-- A completion empties the slot, and does not reach or leave the teardown's step at the Notification Unit (R153, R157). -/
theorem awaits_complete (s : State) (p : Port) (st : Status) (rw : Results) (q : Port) (y : NuItem) :
    ((s.complete p st rw).port q).awaits y =
      if p = q then PortIf.awaits { s.port p with slot := none } y else (s.port q).awaits y := by
  rw [port_complete]
  split
  · split
    · rename_i hsession
      exact awaits_of_elsewhere (slotElsewhere_of_ready (pi := (s.port p).discardCompletion) rfl)
        (slotElsewhere_of_ready (pi := { s.port p with slot := none }) rfl) (by simp [PortIf.discardCompletion, hsession])
    · rfl
  · rfl

theorem State.InputOk.complete (h : s.InputOk) (hslot : (s.port p).SlotElsewhere) (st : Status) (rw : Results) :
    (s.complete p st rw).InputOk := by
  refine h.kept (fun _ _ _ => by rw [complete_frame]) fun q y => ?_
  rw [awaits_complete]
  split
  · rename_i hq
    subst hq
    exact awaits_of_elsewhere (slotElsewhere_of_ready (pi := { s.port p with slot := none }) rfl) hslot Iff.rfl
  · rfl

end

/-! ### Reports, arrivals and translations -/

section
variable {s t : State} {p : Port}

theorem awaits_appendRecord (s : State) (p : Port) (x : Record) (q : Port) (y : NuItem) :
    ((s.appendRecord p x).port q).awaits y = (s.port q).awaits y := by
  rcases appendRecord_cases s p x with ⟨-, h⟩ | ⟨-, h⟩ <;> rw [h] <;>
    exact (posted_updatePort (s.setRing p _) p rfl rfl).awaits q y

theorem awaits_routeEntry (s : State) (r : EntryReport) (q : Port) (y : NuItem) :
    ((s.routeEntry r q).port q).awaits y = (s.port q).awaits y := by
  unfold State.routeEntry State.deliver
  dsimp only
  split
  · split
    · split
      · rw [State.port_updatePort, if_pos rfl]; rfl
      · exact awaits_appendRecord s q _ q y
    · rfl
  · rfl

theorem awaits_routePort (s : State) (r : PortReport) (q : Port) (y : NuItem) :
    ((s.routePort r q).port q).awaits y = (s.port q).awaits y := by
  unfold State.routePort
  split
  · exact awaits_appendRecord s q _ q y
  · rfl

/-- A report taken at the head of the input order is no port's own item. -/
theorem State.InputOk.takeReport (h : s.InputOk) {x : NuItem} (hinput : s.nuInput = x :: t.nuInput) (hx : x.isReport = true)
    (hawaits : ∀ q y, (t.port q).awaits y = (s.port q).awaits y) : t.InputOk := by
  refine h.kept (fun q y hy => ?_) hawaits
  have hne : x ≠ y := by
    rintro rfl
    exact Option.some_ne_none q (hy.symm.trans (owner_of_isReport hx))
  rw [hinput, List.count_cons_of_ne hne]

/-- A request other than MRK begins its path at another block (Table 9-3). -/
theorem firstStage_ne_notify {req : Request} (h : req ≠ .mrk) : req.firstStage ≠ .notify := by
  cases req <;> simp_all [Request.firstStage]

theorem State.InputOk.holdElsewhere (h : s.InputOk) (hslot : (s.port p).SlotElsewhere) {c : Pending} (hstage : c.stage ≠ .notify)
    (hreq : c.req ≠ .mrk) : (s.updatePort p fun pi => { pi with slot := some c }).InputOk :=
  h.updatePort fun _ =>
    awaits_of_elsewhere (slotElsewhere_of_slot (pi := { s.port p with slot := some c }) rfl hstage hreq) hslot Iff.rfl

/-- A SUB that goes to the Notification Unit stands in its input order (R110, R157). -/
theorem State.InputOk.enterSub (h : s.InputOk) (hslot : (s.port p).SlotElsewhere) {c : Pending} (hstage : c.stage = .notify)
    (hreq : c.req ≠ .mrk) : ((s.updatePort p fun pi => { pi with slot := some c }).toNotify (.sub p)).InputOk := by
  obtain ⟨hsub, hmark⟩ := hslot
  have hheld : ({ s.port p with slot := some c } : PortIf).slot = some c := rfl
  refine h.enter (x := .sub p) rfl hsub ((subWaits_of_slot hheld).trans (decide_eq_true ⟨hstage, hreq⟩)) fun y hne howner => ?_
  cases y with
  | entry _ | port _ | teardown _ => rfl
  | sub q => cases howner; exact absurd rfl hne
  | mark _ => exact (markWaits_of_slot hheld).trans ((decide_eq_false hreq).trans hmark.symm)

/-- An MRK stands in the input order from its arrival on (R135). -/
theorem State.InputOk.enterMark (h : s.InputOk) (hslot : (s.port p).SlotElsewhere) {c : Pending} (hreq : c.req = .mrk) :
    ((s.updatePort p fun pi => { pi with slot := some c }).toNotify (.mark p)).InputOk := by
  obtain ⟨hsub, hmark⟩ := hslot
  have hheld : ({ s.port p with slot := some c } : PortIf).slot = some c := rfl
  refine h.enter (x := .mark p) rfl hmark ((markWaits_of_slot hheld).trans (decide_eq_true hreq)) fun y hne howner => ?_
  cases y with
  | entry _ | port _ | teardown _ => rfl
  | sub _ => exact (subWaits_of_slot hheld).trans ((decide_eq_false fun hnotify => hnotify.2 hreq).trans hsub.symm)
  | mark q => cases howner; exact absurd rfl hne

theorem State.InputOk.takeSlot (h : s.InputOk) (hready : (s.port p).slot = none) (req : Request) :
    (s.takeSlot p req).InputOk := by
  have helsewhere := slotElsewhere_of_ready hready
  unfold State.takeSlot
  split
  · rename_i hreq
    exact (h.enterMark helsewhere hreq).posted (posted_arbitrate _)
  · rename_i hreq
    exact (h.holdElsewhere helsewhere (firstStage_ne_notify hreq) hreq).posted (posted_arbitrate _)

theorem State.InputOk.completeNow (h : s.InputOk) (hready : (s.port p).slot = none) (st : Status) :
    (s.completeNow p st).InputOk :=
  h.updatePort fun _ => awaits_of_same_place (by exact hready.symm) (by rfl)

theorem State.InputOk.arrive (h : s.InputOk) (hready : (s.port p).slot = none) (req : Request) : (s.arrive p req).InputOk := by
  unfold State.arrive
  split
  · exact h
  · split
    · have hdropped := h.posted (posted_updatePort s p (f := PortIf.dropNotices) rfl rfl)
      exact hdropped.takeSlot (by rw [State.port_updatePort, if_pos rfl]; exact hready) req
    · exact h.completeNow hready _
  · exact h.completeNow hready _
  · split
    · exact h.completeNow hready _
    · exact h.takeSlot hready req

theorem State.InputOk.writeCommand (h : s.InputOk) (p : Port) (v : Word) : (s.writeCommand p v).InputOk := by
  have hkept := h.posted (posted_updatePort s p (f := fun pi => { pi with cmdWord := v }) rfl rfl)
  unfold State.writeCommand
  dsimp only
  split
  · exact h
  · split
    · exact hkept.posted (posted_updatePort _ p rfl rfl)
    · rename_i hready
      exact hkept.arrive (by rw [State.port_updatePort, if_pos rfl]; exact hready) _

/-- A translated SUB goes on to the Notification Unit, every other command to SC's arbiter (R110). -/
theorem subItems_cases (p : Port) (req : Request) :
    (subItems p req = [.sub p] ∧ req.stageAfterTranslation = .notify ∧ req ≠ .mrk) ∨
      (subItems p req = [] ∧ req.stageAfterTranslation = .store) := by
  cases req with
  | sub l kinds coalesce => exact .inl ⟨rfl, rfl, nofun⟩
  | _ => exact .inr ⟨rfl, rfl⟩

theorem State.InputOk.passedOn (h : s.InputOk) {c : Pending} (hstands : s.standsAt p c .translate) :
    (s.passedOn p c).InputOk := by
  obtain ⟨hslot, hstage⟩ := hstands
  have hsub : (s.port p).subWaits = false := by simp [subWaits_of_slot hslot, hstage]
  rcases subItems_cases p c.req with ⟨hitems, hnext, hreq⟩ | ⟨hitems, hnext⟩
  · rw [State.passedOn, hitems]
    exact h.enterSub (c := c.translated s.grants[p]) ⟨hsub, by simp [markWaits_of_slot hslot, hreq]⟩ hnext hreq
  · rw [State.passedOn, hitems, List.append_nil]
    have hheld : ({ s.port p with slot := some (c.translated s.grants[p]) } : PortIf).slot =
        some (c.translated s.grants[p]) := rfl
    have hstage' : (c.translated s.grants[p]).stage ≠ .notify := fun hnotify => nomatch hnext.symm.trans hnotify
    exact h.updatePort (f := fun pi => { pi with slot := some (c.translated s.grants[p]) }) fun _ => awaits_congr
      ((subWaits_of_slot hheld).trans ((decide_eq_false fun hnotify => hstage' hnotify.1).trans hsub.symm))
      ((markWaits_of_slot hheld).trans (markWaits_of_slot hslot).symm) Iff.rfl

/-! ### Sessions -/

/-- An entry into OFFLINE empties the slot (R150, R166). -/
theorem slotElsewhere_goOffline (pi : PortIf) : pi.goOffline.SlotElsewhere := slotElsewhere_of_ready rfl

theorem PortIf.Ok.slotElsewhere_of_unattached {pi : PortIf} (h : pi.Ok) (hsession : pi.session = .unattached) :
    pi.SlotElsewhere := by
  have hok := h.session
  rw [hsession] at hok
  cases hslot : pi.slot with
  | none => exact slotElsewhere_of_ready hslot
  | some c =>
    obtain ⟨hreq, hstage⟩ := hok.2 c hslot
    exact slotElsewhere_of_slot hslot (hstage ▸ nofun) (hreq ▸ nofun)

theorem PortIf.Ok.slotElsewhere_of_depart {pi : PortIf} (h : pi.Ok) (hsession : pi.session = .teardown .depart) :
    pi.SlotElsewhere := by
  have hok := h.session
  rw [hsession] at hok
  cases hslot : pi.slot with
  | none => exact slotElsewhere_of_ready hslot
  | some c =>
    obtain ⟨hreq, hstage⟩ := hok c hslot
    exact slotElsewhere_of_slot hslot (hstage ▸ nofun) (hreq ▸ nofun)

theorem awaits_presenceRises (pi : PortIf) (y : NuItem) : pi.presenceRises.awaits y = pi.awaits y := by
  unfold PortIf.presenceRises
  split
  · rename_i hsession
    exact awaits_congr (by rfl) (by rfl) (by simp [hsession])
  all_goals rfl

theorem PortIf.Ok.awaits_presenceFalls {pi : PortIf} (h : pi.Ok) (y : NuItem) : pi.presenceFalls.awaits y = pi.awaits y := by
  unfold PortIf.presenceFalls
  split
  · rfl
  · rename_i hsession
    exact awaits_of_elsewhere (slotElsewhere_goOffline pi) (h.slotElsewhere_of_unattached hsession)
      (by simp [PortIf.goOffline, PortIf.offline, hsession])
  · rename_i hsession
    exact awaits_congr (by rfl) (by rfl) (by split <;> simp [hsession])
  · rfl

theorem awaits_endTeardown {pi : PortIf} (hslot : pi.SlotElsewhere) (hsession : pi.session = .teardown .depart) (y : NuItem) :
    pi.endTeardown.awaits y = pi.awaits y := by
  unfold PortIf.endTeardown
  split
  · dsimp only
    split
    · exact awaits_of_elsewhere (slotElsewhere_of_ready rfl) hslot (by simp [PortIf.complete, PortIf.setLatch, hsession])
    · exact awaits_congr (by rfl) (by rfl) (by simp [hsession])
  · exact awaits_of_elsewhere (slotElsewhere_goOffline pi) hslot (by simp [PortIf.goOffline, PortIf.offline, hsession])

/-- No port awaits anything after a device reset (R137, R166). -/
theorem awaits_afterReset (presence : Bool) (y : NuItem) : (PortIf.afterReset presence).awaits y = false := by
  cases presence <;> cases y <;> rfl

/-- A command taken at the head of the input order and completed: the slot is empty, and what else the port awaits stands. -/
theorem State.InputOk.completeHead (h : s.InputOk) {u : State} {x : NuItem} {rest : List NuItem} (hinput : s.nuInput = x :: rest)
    (hx : x.owner = some p) (hcount : ∀ q y, NuItem.owner y = some q → u.nuInput.count y = rest.count y)
    (hawaits : ∀ q y, (u.port q).awaits y = (s.port q).awaits y)
    (hhead : ∀ pi : PortIf, PortIf.awaits { pi with slot := none } x = false)
    (hslot : ∀ y, y ≠ x → y.owner = some p → PortIf.awaits { u.port p with slot := none } y = (u.port p).awaits y) (st : Status)
    (rw : Results) : (u.complete p st rw).InputOk := by
  refine h.leave hinput hx (fun q y hy => ?_) (fun q y hne => ?_) ?_ fun y hne howner => ?_
  · rw [complete_frame]
    exact hcount q y hy
  · rw [awaits_complete, if_neg hne.symm, hawaits]
  · rw [awaits_complete, if_pos rfl, hhead]
  · rw [awaits_complete, if_pos rfl, hslot y hne howner, hawaits]

/-! ### The courses -/

theorem Posted.slotElsewhere (h : Posted s t) {q : Port} (hslot : (s.port q).SlotElsewhere) : (t.port q).SlotElsewhere :=
  ⟨(h.awaits q (.sub q)).trans hslot.1, (h.awaits q (.mark q)).trans hslot.2⟩

theorem Course.inputOk (hcourse : Course s t) (hports : s.PortsOk) (h : s.InputOk) : t.InputOk := by
  cases hcourse with
  | posts posted => exact h.posted posted
  | completes p c st rw slot stage req posted =>
    exact (h.posted posted).complete (slotElsewhere_of_slot ((posted.slot p).trans slot) stage req) st rw
  | writes p v => exact h.writeCommand p v
  | takes p =>
    unfold State.takeRecord
    split
    · exact h
    · exact h.kept (fun _ _ _ => rfl) fun _ _ => rfl
  | subscribes p rest c st rw input stands req posted =>
    refine h.completeHead input rfl (fun _ _ => posted.count) posted.awaits (fun _ => rfl) (fun y hne howner => ?_) st rw
    cases y with
    | entry _ | port _ | teardown _ => rfl
    | sub q => cases howner; exact absurd rfl hne
    | mark q => exact ((markWaits_of_slot ((posted.slot p).trans stands.slot)).trans (decide_eq_false req)).symm
  | marks p rest c st rw input stands req =>
    have hawaits := awaits_appendRecord { s with nuInput := rest } p (markRecord p s.timeBase)
    have hinput : (State.appendRecord { s with nuInput := rest } p (markRecord p s.timeBase)).nuInput = rest := by
      rw [appendRecord_frame]
    refine h.completeHead input rfl (fun _ _ _ => by rw [hinput]) hawaits (fun _ => rfl) (fun y hne howner => ?_) st rw
    cases y with
    | entry _ | port _ | teardown _ => rfl
    | sub q =>
      have hsub : (s.port p).subWaits = false := by simp [subWaits_of_slot stands.slot, req]
      exact ((hawaits p (.sub q)).trans hsub).symm
    | mark q => cases howner; exact absurd rfl hne
  | routesEntry r rest input left each =>
    refine h.takeReport (left ▸ input) rfl fun q y => ?_
    rw [(each q).port]
    exact awaits_routeEntry { s with nuInput := rest } r q y
  | routesPort r rest input left each =>
    refine h.takeReport (left ▸ input) rfl fun q y => ?_
    rw [(each q).port]
    exact awaits_routePort { s with nuInput := rest } r q y
  | clearsOverflow p =>
    have hring : (s.setRing p { s.ring p with lost := 0 }).InputOk := h.kept (fun _ _ _ => rfl) fun _ _ => rfl
    exact hring.updatePort fun _ => awaits_of_same_place (by rfl) (by rfl)
  | translates p c stands => exact (h.passedOn stands).posted (posted_arbitrate _)
  | attaches p session =>
    have hattached := h.updatePort (p := p) (f := fun pi => { pi with session := .attached }) fun _ =>
      awaits_congr (by rfl) (by rfl) (by simp [session])
    exact hattached.posted ((posted_toNotify _ rfl).trans (posted_handPeerNotice _ p))
  | detaches p c d stands session req req' stage' =>
    obtain ⟨slot, stage⟩ := stands
    refine (h.updatePort fun _ => ?_).posted (posted_arbitrate _)
    exact awaits_of_elsewhere (slotElsewhere_of_slot (c := d) (by rfl) (stage' ▸ nofun) (req' ▸ nofun))
      (slotElsewhere_of_slot slot (stage ▸ nofun) (req ▸ nofun)) (by simp [session])
  | rises p => exact h.updatePort fun y => awaits_presenceRises _ y
  | falls p posted => exact (h.updatePort fun y => (hports p).1.awaits_presenceFalls y).posted posted
  | closes p session posted =>
    refine ((h.posted posted).updatePort fun _ => ?_).posted (posted_arbitrate _)
    exact awaits_congr (by rfl) (by rfl) (by simp [posted.session, session])
  | releases p session posted =>
    have hsession := (posted.session p).trans session
    refine (h.posted posted).enter (x := .teardown p) rfl (by simp [PortIf.awaits, hsession]) (by rfl) fun y hne howner => ?_
    cases y with
    | entry _ | port _ | sub _ | mark _ => rfl
    | teardown q => cases howner; exact absurd rfl hne
  | clears p rest subs input session =>
    refine h.leave input rfl (fun _ _ _ => rfl) (fun q y hne => ?_) ?_ fun y hne howner => ?_
    · rw [State.port_updatePort, if_neg hne.symm]
      rfl
    · rw [State.port_updatePort, if_pos rfl]
      rfl
    · rw [State.port_updatePort, if_pos rfl]
      cases y with
      | entry _ | port _ | sub _ | mark _ => rfl
      | teardown q => cases howner; exact absurd rfl hne
  | departs p session posted =>
    have hsession := (posted.session p).trans session
    have hslot : (s.port p).SlotElsewhere := (hports p).1.slotElsewhere_of_depart session
    exact (h.posted posted).updatePort fun y => awaits_endTeardown (posted.slotElsewhere hslot) hsession y
  | resets =>
    refine (inputOk_iff _).mpr fun q y _ => ?_
    rw [port_resetWith, Fin.getElem_fin, Vector.getElem_map, awaits_afterReset]
    rfl

/-- Settles O56: every row takes a course, and each course adds to and takes from the input order what the ports begin and
cease to await. -/
theorem everyStepKeepsTheInputOrder : Obligations.EveryStepKeepsTheInputOrder := by
  intro s t hports h hstep
  unfold step at hstep
  split at hstep
  · obtain rfl := Host.Outcome.next.inj hstep
    exact h.posted (posted_microsecond s)
  · exact (exec_course hstep).inputOk hports (h.kept (fun _ _ _ => rfl) fun _ _ => rfl)

end

end Sys2Proof.Machine
end

section
/-! PROOF. The Notification Unit's own rows: SUB (O45), MRK (O46), the routing of reports (O47, O48) and clears of OVERFLOW
(O49). -/

namespace Sys2Proof.Machine

/-! ### SUB -/

section
variable {s : State} {p : Port} {c : Pending} {rest : List NuItem}

theorem exec_sub (hinput : s.nuInput = .sub p :: rest) (h : s.standsAt p c .notify) {l : LocalNo} {kinds : Kinds}
    {coalesce : Bool} (hreq : c.req = .sub l kinds coalesce) :
    exec (.sub p) s =
      let r := State.subscribe { s with nuInput := rest } p kinds coalesce c.answers[0]
      .next (r.1.complete p r.2.1 r.2.2) := by
  obtain ⟨req, stage, locals, answers⟩ := c
  subst hreq
  simp only [exec, execSub, hinput, State.notifyCommand, (commandAt_eq_some s p .notify _).mpr h, if_pos]

theorem isEmpty_iff (kinds : Kinds) :
    Kinds.isEmpty kinds = true ↔ kinds = { published := false, stale := false, withdrawn := false, defined := false } := by
  obtain ⟨published, stale, withdrawn, defined⟩ := kinds
  simp [Kinds.isEmpty, and_assoc]

/-- The subscription that an accepted SUB leaves: absent where it names no kind (R123). -/
theorem subscription_of_sub (kinds : Kinds) (coalesce : Bool) :
    (if Kinds.isEmpty kinds then Subscription.absent else { kinds := kinds, coalesce := coalesce }) =
      if kinds = { published := false, stale := false, withdrawn := false, defined := false } then
        ({ kinds := kinds, coalesce := false } : Subscription)
      else { kinds := kinds, coalesce := coalesce } := by
  by_cases h : kinds = { published := false, stale := false, withdrawn := false, defined := false }
  · rw [if_pos ((isEmpty_iff kinds).mpr h), if_pos h, h]
    rfl
  · rw [if_neg (mt (isEmpty_iff kinds).mp h), if_neg h]

theorem subscribe_of_read {ans : Answer} {e : EntryId} {r : Rights} (hanswer : ans = some (e, r)) (hread : r.read = true)
    (kinds : Kinds) (coalesce : Bool) :
    s.subscribe p kinds coalesce ans =
      (s.setSubscription p e
        (if kinds = { published := false, stale := false, withdrawn := false, defined := false } then
          { kinds := kinds, coalesce := false }
        else { kinds := kinds, coalesce := coalesce }), .ok, #v[BitVec.ofNat 32 e.val, 0, 0, 0, 0, 0, 0, 0, 0, 0]) := by
  subst hanswer
  rw [← subscription_of_sub]
  simp only [State.subscribe, hread, Bool.not_true, Bool.false_eq_true, if_false]
  rfl

theorem subscribe_of_not_read {ans : Answer} {e : EntryId} {r : Rights} (hanswer : ans = some (e, r)) (hread : r.read = false)
    (kinds : Kinds) (coalesce : Bool) : s.subscribe p kinds coalesce ans = s.refuse .noRight := by
  subst hanswer
  simp only [State.subscribe, hread, Bool.not_false, if_pos]

/-- Settles O45: the three answers of the translation are the three branches of `State.subscribe`. -/
theorem subscribeReplacesTheSubscription : Obligations.SubscribeReplacesTheSubscription := by
  intro s p c rest l kinds coalesce hinput hstands hreq
  have hexec := exec_sub hinput hstands hreq
  refine ⟨fun hanswer => ?_, fun e r hanswer hread => ?_, fun e r hanswer hread => ?_⟩
  · rw [hexec, hanswer]
    rfl
  · rw [hexec, subscribe_of_not_read hanswer hread]
    rfl
  · rw [hexec, subscribe_of_read hanswer hread]
    rfl

/-! ### MRK -/

theorem exec_mrk (hinput : s.nuInput = .mark p :: rest) (h : s.standsAt p c .notify) (hreq : c.req = .mrk) :
    exec (.mrk p) s =
      .next ((State.appendRecord { s with nuInput := rest } p (markRecord p s.timeBase)).complete p .ok
        (s.ring p).markResults) := by
  obtain ⟨req, stage, locals, answers⟩ := c
  subst hreq
  simp only [exec, execMrk, hinput, State.notifyCommand, (commandAt_eq_some s p .notify _).mpr h, if_pos]

/-- The results of MRK as numbers: bit 0 says that the MARK was appended, bits 31:16 give its sequence (Table 10-5). -/
theorem markResults_eq (r : Ring) :
    r.markResults =
      if r.records.length < 64 then #v[BitVec.ofNat 32 (1 + 65536 * r.seq.toNat), 0, 0, 0, 0, 0, 0, 0, 0, 0]
      else Vector.replicate 10 0 := by
  have hroom : r.hasRoom = true ↔ r.records.length < 64 := decide_eq_true_iff
  have hword : r.seq ++ 0#15 ++ 1#1 = BitVec.ofNat 32 (1 + 65536 * r.seq.toNat) := by
    rw [show r.seq ++ 0#15 ++ 1#1 = r.seq ++ 1#16 from BitVec.append_assoc ..]
    exact append_halves r.seq 1
  simp only [Ring.markResults, hroom, hword, resultWords_eq]
  rfl

/-- Settles O46: the append of the MARK, by `appended_appendRecord` and the frame of `State.appendRecord`. -/
theorem markAppendsToItsOwnRing : Obligations.MarkAppendsToItsOwnRing := by
  intro s p c rest hinput hstands hreq
  refine ⟨_, (exec_mrk hinput hstands hreq).trans (by rw [markResults_eq]), ?_, fun q hne => ?_, appendRecord_frame _ p _⟩
  · exact ⟨markRecord p s.timeBase, rfl, rfl, rfl, rfl, rfl, rfl, rfl, appended_appendRecord { s with nuInput := rest } p _⟩
  · have hagree := agreeAt_appendRecord { s with nuInput := rest } hne (markRecord p s.timeBase)
    exact ⟨hagree.ring, hagree.port⟩

end

/-! ### Reports of an entry kind -/

section
variable {s : State} {r : EntryReport} {q : Port} {l : LocalNo}

theorem isCandidate_iff : s.isCandidate r q = true ↔
    (s.port q).session = .attached ∧ Kinds.names (s.subscription q r.entry).kinds r.kind = true := by
  simp [State.isCandidate]

/-- A report does not reach a port that is no candidate or has no local number for the entry (R112, R126). -/
theorem routeEntry_of_unreached (h : ¬((s.port q).session = .attached ∧
    Kinds.names (s.subscription q r.entry).kinds r.kind = true ∧ reverseTranslate s.grants[q] r.entry ≠ none)) :
    s.routeEntry r q = s := by
  unfold State.routeEntry
  split
  · rename_i hcandidate
    obtain ⟨hsession, hkind⟩ := isCandidate_iff.mp hcandidate
    split
    · rename_i l hl
      exact absurd ⟨hsession, hkind, hl ▸ Option.some_ne_none l⟩ h
    · rfl
  · rfl

theorem routeEntry_of_reached (hsession : (s.port q).session = .attached)
    (hkind : Kinds.names (s.subscription q r.entry).kinds r.kind = true)
    (hlocal : reverseTranslate s.grants[q] r.entry = some l) : s.routeEntry r q = s.deliver q r l := by
  unfold State.routeEntry
  rw [if_pos (isCandidate_iff.mpr ⟨hsession, hkind⟩), hlocal]

theorem saturatingSucc_byte (x : Byte) : saturatingSucc x = if x = 0xFF then 0xFF else x + 1 := by
  change (if x = 0xFF then x else x + 1) = _
  split
  · assumption
  · rfl

/-- A record with a report folded into it, field by field (R129). -/
theorem fold_eq (x : Record) (r : EntryReport) :
    x.fold r =
      { x with
        version := r.version
        time := r.time
        origin := r.origin
        merged := if x.merged = 0xFF then 0xFF else x.merged + 1 } := by
  rw [Record.fold, saturatingSucc_byte]

theorem coalescesFor_iff : s.coalescesFor q r = true ↔ r.kind = .published ∧ (s.subscription q r.entry).coalesce = true := by
  simp [State.coalescesFor]

theorem not_coalescesWith_iff {x : Record} : x.coalescesWith l = false ↔ ¬(x.kind = .published ∧ x.localNo = some l) := by
  rw [← coalescesWith_iff, Bool.not_eq_true]

/-- A report that coalesces folds into the youngest record of its number (R129). -/
theorem deliver_into_youngest (hkind : r.kind = .published) (hvia : (s.subscription q r.entry).coalesce = true)
    {l₁ l₂ : List Record} {x : Record} (hrecords : (s.ring q).records = l₁ ++ x :: l₂) (hpub : x.kind = .published)
    (hlocal : x.localNo = some l) (hyoungest : ∀ y ∈ l₂, ¬(y.kind = .published ∧ y.localNo = some l)) :
    s.deliver q r l =
      (s.setRing q { s.ring q with records := l₁ ++ x.fold r :: l₂ }).updatePort q (·.setLatch bitNotify) :=
  deliver_of_coalesceInto s q (coalescesFor_iff.mpr ⟨hkind, hvia⟩) ((coalesceInto_eq_some l r _ _).mpr
    ⟨l₁, x, l₂, hrecords, coalescesWith_iff.mpr ⟨hpub, hlocal⟩, fun y hy => not_coalescesWith_iff.mpr (hyoungest y hy), rfl⟩)

/-- A report that does not coalesce, or finds no record of its number, is appended (R128, R129). -/
theorem deliver_appends (h : ¬(r.kind = .published ∧ (s.subscription q r.entry).coalesce = true ∧
    ∃ y ∈ (s.ring q).records, y.kind = .published ∧ y.localNo = some l)) :
    s.deliver q r l = s.appendRecord q (r.record l (s.coalescesFor q r)) := by
  refine deliver_of_no_record s q fun hvia => (coalesceInto_eq_none l r _).mpr fun y hy => ?_
  refine not_coalescesWith_iff.mpr fun hy' => ?_
  obtain ⟨hkind, hcoalesce⟩ := coalescesFor_iff.mp hvia
  exact h ⟨hkind, hcoalesce, y, hy, hy'⟩

end

/-- Settles O47: each port is served as if alone (`exec_entryReport`), by one of the three outcomes of a delivery. -/
theorem entryReportReachesItsCandidates : Obligations.EntryReportReachesItsCandidates := by
  intro s r rest hinput
  obtain ⟨t, hexec, hframe, heach⟩ := exec_entryReport hinput
  refine ⟨t, hexec, hframe, fun q => ?_⟩
  obtain ⟨hring, hport, -⟩ := heach q
  rw [hring, hport]
  clear hring hport
  refine ⟨fun hunreached => ?_, fun l hsession hkind hlocal => ?_⟩
  · rw [routeEntry_of_unreached (s := { s with nuInput := rest }) hunreached]
    exact ⟨rfl, rfl⟩
  · rw [routeEntry_of_reached (s := { s with nuInput := rest }) hsession hkind hlocal]
    refine ⟨fun hpublished hvia l₁ x l₂ hrecords hpub hnumber hyoungest => ?_, fun happended => ?_⟩
    · rw [deliver_into_youngest (s := { s with nuInput := rest }) hpublished hvia hrecords hpub hnumber hyoungest, fold_eq]
      exact ⟨(State.ring_setRing _ q _ q).trans (if_pos rfl), (State.port_updatePort _ q _ q).trans (if_pos rfl)⟩
    · rw [deliver_appends (s := { s with nuInput := rest }) happended]
      exact ⟨_, rfl, rfl, rfl, rfl, rfl, rfl, rfl, appended_appendRecord { s with nuInput := rest } q _⟩

/-! ### Reports of a port or claim kind -/

theorem notFor_eq_some_iff {r : PortReport} {q : Port} :
    r.notFor = some q ↔ (∃ time, r = .attached q time) ∨ ∃ time, r = .detached q time := by
  cases r <;> simp [PortReport.notFor]

/-- Settles O48: each port is served as if alone (`exec_portReport`), and the report is appended or not for the port. -/
theorem portReportReachesEveryAttachedPort : Obligations.PortReportReachesEveryAttachedPort := by
  intro s r rest hinput
  obtain ⟨t, hexec, hframe, heach⟩ := exec_portReport hinput
  refine ⟨t, hexec, hframe, fun q => ?_⟩
  obtain ⟨hring, hport, -⟩ := heach q
  rw [hring, hport]
  unfold State.routePort
  refine ⟨fun hnot => ?_, fun hsession hattached hdetached => ?_⟩
  · rw [if_neg fun hfor => ?_]
    · exact ⟨rfl, rfl⟩
    · exact hnot.elim (fun hne => hne hfor.1) fun habout => hfor.2 (notFor_eq_some_iff.mpr habout)
  · have hfor : r.notFor ≠ some q := fun habout =>
      (notFor_eq_some_iff.mp habout).elim (fun ⟨time, h⟩ => hattached time h) fun ⟨time, h⟩ => hdetached time h
    rw [if_pos ⟨hsession, hfor⟩]
    have happended := appended_appendRecord { s with nuInput := rest } q r.record
    cases r with
    | attached _ _ | detached _ _ | claimMoved _ _ => exact ⟨_, rfl, rfl, rfl, rfl, ⟨rfl, rfl, rfl⟩, happended⟩

/-! ### Clears of OVERFLOW -/

section
variable {s : State} {p : Port}

theorem exec_overflowClear (h : 0 < (s.port p).overflowClears) :
    exec (.overflowClear p) s = .next ((s.setRing p { s.ring p with lost := 0 }).updatePort p PortIf.overflowCleared) :=
  if_neg (Nat.ne_of_gt h)

theorem appendRecord_of_full (h : 64 ≤ (s.ring p).records.length) (x : Record) :
    s.appendRecord p x =
      (s.setRing p { s.ring p with lost := saturatingSucc (s.ring p).lost }).updatePort p PortIf.raiseOverflow := by
  rcases appendRecord_cases s p x with ⟨hroom, -⟩ | ⟨-, heq⟩
  · omega
  · exact heq

/-- A discard that finds a clear waiting and the bit clear sets a bit that this clear removes (R132, log entry 6). -/
theorem hasLatch_cleared_of_raised {pi : PortIf} (hclears : 0 < pi.overflowClears) (hbit : pi.hasLatch bitOverflow = false) :
    pi.raiseOverflow.overflowCleared.hasLatch bitOverflow = false := by
  have hraised : pi.raiseOverflow.overflowRaised = true := by simp [PortIf.raiseOverflow, hclears, hbit]
  have hlatch : (pi.raiseOverflow.latch &&& ~~~bitOverflow) &&& bitOverflow = 0 := by
    rw [BitVec.and_assoc]; simp
  simp [PortIf.hasLatch, PortIf.overflowCleared, hraised, hlatch]

theorem hasLatch_raiseOverflow (pi : PortIf) : pi.raiseOverflow.hasLatch bitOverflow = true := by
  have hlatch : (pi.latch ||| bitOverflow) &&& bitOverflow = bitOverflow := by
    ext i
    simp +contextual
  have hbit : bitOverflow ≠ 0 := by decide
  simpa [PortIf.hasLatch, PortIf.raiseOverflow, PortIf.setLatch, hlatch] using hbit

/-- Settles O49: the clear by `exec_overflowClear`, the discards by `appendRecord_of_full`. -/
theorem overflowClearAgreesWithDiscards : Obligations.OverflowClearAgreesWithDiscards := by
  intro s p hclears
  refine ⟨exec_overflowClear hclears, fun x _ _ hbit hfull => ⟨?_, ?_⟩⟩
  · have hport : (s.appendRecord p x).port p = (s.port p).raiseOverflow := by
      simp [appendRecord_of_full hfull]
    refine ⟨_, exec_overflowClear (by rw [hport]; exact hclears), by simp, ?_⟩
    rw [State.port_updatePort, if_pos rfl, State.setRing_port, hport]
    exact hasLatch_cleared_of_raised hclears hbit
  · refine ⟨_, exec_overflowClear hclears, ?_⟩
    rw [appendRecord_of_full (by simpa using hfull)]
    refine ⟨by simp [saturatingSucc_half], ?_⟩
    rw [State.port_updatePort, if_pos rfl]
    exact hasLatch_raiseOverflow _

end

end Sys2Proof.Machine
end

section
/-! SUPPORT. The configuration claim and the grants, operation by operation: each of them keeps the wait list apart from the
holder (R138) and every grant legal (R106). -/

namespace Sys2Proof.Machine

/-! ### The claim -/

section
variable {s t : State} {p : Port}

theorem State.ClaimOk.congr (h : s.ClaimOk) (holder : t.holder = s.holder) (waiters : t.waiters = s.waiters) : t.ClaimOk where
  nodup := waiters ▸ h.nodup
  holderOutside q hq := waiters ▸ h.holderOutside q (holder ▸ hq)
  emptyWhenFree hfree := waiters ▸ h.emptyWhenFree (holder ▸ hfree)

theorem State.ClaimOk.passClaim (h : s.ClaimOk) : s.passClaim.ClaimOk := by
  have hnodup := h.nodup
  unfold State.passClaim
  split
  · exact ⟨.nil, nofun, fun _ => rfl⟩
  · rename_i q rest hwaiters
    rw [hwaiters] at hnodup
    obtain ⟨hq, hrest⟩ := List.nodup_cons.mp hnodup
    refine ⟨hrest, fun r hr => ?_, nofun⟩
    obtain rfl := Option.some.inj hr
    exact hq

/-- A port that leaves the wait list, if it stands there. -/
theorem State.ClaimOk.leaves (h : s.ClaimOk) (p : Port) : State.ClaimOk { s with waiters := s.waiters.erase p } where
  nodup := h.nodup.erase p
  holderOutside q hq hmem := h.holderOutside q hq (List.mem_of_mem_erase hmem)
  emptyWhenFree hfree := by simp [h.emptyWhenFree hfree]

/-- A port other than the holder that joins the tail of the wait list of a held claim. -/
theorem State.ClaimOk.joins (h : s.ClaimOk) (hheld : s.holder ≠ none) (hholder : s.holder ≠ some p) (hp : p ∉ s.waiters) :
    State.ClaimOk { s with waiters := s.waiters ++ [p] } where
  nodup := List.concat_eq_append ▸ h.nodup.concat hp
  holderOutside q hq hmem := by
    rcases List.mem_append.mp hmem with hmem | hmem
    · exact h.holderOutside q hq hmem
    · obtain rfl := List.mem_singleton.mp hmem
      exact hholder hq
  emptyWhenFree hfree := absurd hfree hheld

theorem State.ClaimOk.claim (h : s.ClaimOk) (p : Port) (wait : Bool) : (s.claim p wait).1.ClaimOk := by
  unfold State.claim
  split_ifs with hfree hholder hwait hp
  · have hempty := h.emptyWhenFree hfree
    exact ⟨h.nodup, fun _ _ => hempty ▸ List.not_mem_nil, nofun⟩
  · exact h
  · exact h
  · exact h
  · exact h.joins hfree hholder hp

theorem State.ClaimOk.release (h : s.ClaimOk) (p : Port) : (s.release p).1.ClaimOk := by
  unfold State.release
  split_ifs
  · exact h.passClaim
  · exact h.leaves p
  · exact h

theorem State.ClaimOk.releaseAtTeardown (h : s.ClaimOk) (p : Port) : (s.releaseAtTeardown p).ClaimOk := by
  unfold State.releaseAtTeardown
  split_ifs
  · exact h.passClaim
  · exact h.leaves p

theorem State.ClaimOk.complete (h : s.ClaimOk) (p : Port) (st : Status) (rw : Results) : (s.complete p st rw).ClaimOk := by
  rw [complete_frame]
  exact h.congr rfl rfl

theorem resetWith_claimOk (ports : Vector PortIf 4) (pending : List Instr) : (State.resetWith ports pending).ClaimOk :=
  ⟨.nil, nofun, fun _ => rfl⟩

theorem beyondStore_microsecond (s : State) :
    s.microsecond.beyondStore =
      { s.beyondStore with timeBase := s.microsecond.timeBase, phase := s.microsecond.phase } := by
  obtain ⟨now, phase, owed, waiting, held⟩ := held_microsecond s
  have hnow : s.microsecond.timeBase = now := (congrArg State.timeBase held :)
  have hphase : s.microsecond.phase = phase := (congrArg State.phase held :)
  unfold State.beyondStore
  rw [held, hnow, hphase]
  rfl

/-- The Claim Unit's three rows keep the claim legal; no other row but DEVICE_RESET reaches it. -/
theorem exec_claimOk {i : Instr} (h : s.ClaimOk) (hexec : exec i s = .next t) : t.ClaimOk := by
  by_cases hreset : i = .deviceReset
  · subst hreset
    obtain rfl := Host.Outcome.next.inj ((exec_deviceReset s).symm.trans hexec)
    exact resetWith_claimOk _ _
  rcases (exec_effect hexec).beyondStore hreset with hb | ⟨-, hb⟩ | ⟨row, -⟩ | ⟨-, hheld, -⟩ | ⟨-, hb⟩
  · exact h.congr (congrArg State.holder hb :) (congrArg State.waiters hb :)
  · exact h.congr (congrArg State.holder hb :) (congrArg State.waiters hb :)
  · obtain ⟨p, rfl⟩ | ⟨p, rfl⟩ | ⟨p, rfl⟩ := row
    · simp only [exec, execCla] at hexec
      split at hexec <;> cases hexec
      · exact (h.claim p _).complete p _ _
      · exact h
    · simp only [exec, execRel] at hexec
      split at hexec <;> cases hexec
      · exact (h.release p).complete p _ _
      · exact h
    · simp only [exec, execTeardownCu] at hexec
      split at hexec <;> cases hexec
      · exact (h.releaseAtTeardown p).congr rfl rfl
      · exact h
  · exact h.congr (congrArg State.holder hheld :) (congrArg State.waiters hheld :)
  · exact h.congr (congrArg State.holder hb :) (congrArg State.waiters hb :)

theorem step_claimOk (h : s.ClaimOk) (hstep : step s = .next t) : t.ClaimOk := by
  unfold step at hstep
  split at hstep
  · obtain rfl := Host.Outcome.next.inj hstep
    have hb := beyondStore_microsecond s
    exact h.congr (congrArg State.holder hb :) (congrArg State.waiters hb :)
  · rename_i c rest _
    have hrest : State.ClaimOk { s with pending := rest } := h.congr rfl rfl
    exact exec_claimOk hrest hstep

end

/-! ### The grants -/

section
variable {s t : State}

theorem ok_disabled : Grant.disabled.Ok := rfl

/-- What an SGR asks for is a legal grant, or the SGR is refused (R117). -/
theorem ok_of_grantAsked {count localBase globalBase : Half} {rights : Rights} {g : Grant}
    (h : grantAsked count localBase globalBase rights = some g) : g.Ok := by
  unfold grantAsked at h
  split_ifs at h with hzero hsmall hfits
  · obtain rfl := Option.some.inj h
    exact ok_disabled
  · obtain rfl := Option.some.inj h
    obtain ⟨hlocal, hglobal, hrights⟩ := hfits
    have hpos : 1 ≤ count.toNat := Nat.one_le_iff_ne_zero.mpr fun hcount => hzero (BitVec.eq_of_toNat_eq hcount)
    exact ⟨hpos, hlocal, hglobal, hrights⟩

theorem State.GrantsOk.congr (h : s.GrantsOk) (grants : t.grants = s.grants) : t.GrantsOk := fun p i => by
  rw [State.grant, grants]
  exact h p i

theorem State.GrantsOk.replaceGrant (h : s.GrantsOk) (target index : Byte) (count localBase globalBase : Half)
    (rights : Rights) : (s.replaceGrant target index count localBase globalBase rights).1.GrantsOk := by
  unfold State.replaceGrant
  split
  · rename_i q i g _ _ hg
    intro p j
    rw [State.grant_setGrant]
    split
    · exact ok_of_grantAsked hg
    · exact h p j
  · exact h

/-- SGR keeps the grants legal; no other row but DEVICE_RESET reaches them. -/
theorem exec_grantsOk {i : Instr} (h : s.GrantsOk) (hexec : exec i s = .next t) : t.GrantsOk := by
  by_cases hreset : i = .deviceReset
  · subst hreset
    obtain rfl := Host.Outcome.next.inj ((exec_deviceReset s).symm.trans hexec)
    exact fun p i => (grant_resetWith _ _ p i).symm ▸ ok_disabled
  rcases (exec_effect hexec).beyondStore hreset with hb | ⟨-, hb⟩ | ⟨-, change⟩ | ⟨⟨p, rfl⟩, -, -⟩ | ⟨-, hb⟩
  · exact h.congr (congrArg State.grants hb :)
  · exact h.congr (congrArg State.grants hb :)
  · exact h.congr (congrArg State.grants change.held :)
  · simp only [exec, execSgr] at hexec
    split at hexec <;> cases hexec
    · rw [complete_frame]
      exact (h.replaceGrant _ _ _ _ _ _).congr rfl
    · exact h
  · exact h.congr (congrArg State.grants hb :)

theorem step_grantsOk (h : s.GrantsOk) (hstep : step s = .next t) : t.GrantsOk := by
  unfold step at hstep
  split at hstep
  · obtain rfl := Host.Outcome.next.inj hstep
    exact h.congr (congrArg State.grants (beyondStore_microsecond s) :)
  · rename_i c rest _
    have hrest : State.GrantsOk { s with pending := rest } := h.congr rfl
    exact exec_grantsOk hrest hstep

end

end Sys2Proof.Machine
end

section
/-! SUPPORT. A Port Interface's agreement (R132, R150 to R156, R165, R166), one change of the Port Interface at a time. -/

namespace Sys2Proof.Machine

/-! ### Bits of the latch -/

section
variable {n : Nat} {x b : BitVec n}

theorem or_and_ne_zero (h : x &&& b ≠ 0) (y : BitVec n) : (x ||| y) &&& b ≠ 0 := by
  rw [BitVec.and_comm, BitVec.and_or_distrib_left, BitVec.and_comm]
  exact fun hzero => h (BitVec.or_eq_zero_iff.mp hzero).1

theorem or_self_and_ne_zero (h : b ≠ 0) (x : BitVec n) : (x ||| b) &&& b ≠ 0 := by
  rw [BitVec.or_comm]
  exact or_and_ne_zero (by rwa [BitVec.and_self]) x

/-- Clearing the bits of `v` leaves the bits that `v` does not hold. -/
theorem and_not_and_eq {v : BitVec n} (h : v &&& b = 0) (x : BitVec n) : x &&& ~~~v &&& b = x &&& b := by
  ext i hi
  have hbit : (v &&& b)[i] = false := by rw [h]; exact BitVec.getElem_zero hi
  simp only [BitVec.getElem_and, BitVec.getElem_not] at hbit ⊢
  grind

end

/-! ### The fault record and the mark of OVERFLOW -/

/-- The fault record agrees with FAULT, and a mark of OVERFLOW stands only where a clear waits and the bit is set: the part of
`PortIf.Ok` that does not read the session (R132, R165). -/
structure PortIf.FlagsOk (pi : PortIf) : Prop where
  faultLatched : pi.fault.code ≠ none → pi.latch &&& bitFault ≠ 0
  faultEmpty : pi.fault.code = none → pi.fault = FaultRecord.empty
  overflowMark : pi.overflowRaised = true → 0 < pi.overflowClears ∧ pi.latch &&& bitOverflow ≠ 0

section
variable {pi pi' : PortIf}

theorem PortIf.Ok.flags (h : pi.Ok) : pi.FlagsOk := ⟨h.faultLatched, h.faultEmpty, h.overflowMark⟩

theorem PortIf.FlagsOk.congr (h : pi.FlagsOk) (latch : pi'.latch = pi.latch) (fault : pi'.fault = pi.fault)
    (clears : pi'.overflowClears = pi.overflowClears) (raised : pi'.overflowRaised = pi.overflowRaised) : pi'.FlagsOk where
  faultLatched := by rw [fault, latch]; exact h.faultLatched
  faultEmpty := by rw [fault]; exact h.faultEmpty
  overflowMark := by rw [raised, clears, latch]; exact h.overflowMark

/-- Without a fault record and a mark nothing is asked of the latch (R154, R166). -/
theorem flagsOk_of_empty (fault : pi.fault = FaultRecord.empty) (raised : pi.overflowRaised = false) : pi.FlagsOk where
  faultLatched hcode := absurd (by rw [fault]; rfl) hcode
  faultEmpty _ := fault
  overflowMark hmark := by rw [raised] at hmark; cases hmark

theorem PortIf.FlagsOk.setLatch (h : pi.FlagsOk) (b : BitVec 7) : (pi.setLatch b).FlagsOk where
  faultLatched hcode := or_and_ne_zero (h.faultLatched hcode) b
  faultEmpty := h.faultEmpty
  overflowMark hmark := (h.overflowMark hmark).imp_right fun hbit => or_and_ne_zero hbit b

theorem PortIf.FlagsOk.raiseOverflow (h : pi.FlagsOk) : pi.raiseOverflow.FlagsOk where
  faultLatched := (h.setLatch bitOverflow).faultLatched
  faultEmpty := h.faultEmpty
  overflowMark hmark := by
    refine ⟨?_, or_self_and_ne_zero (by decide) pi.latch⟩
    rcases Bool.or_eq_true_iff.mp hmark with hmark | hnew
    · exact (h.overflowMark hmark).1
    · exact of_decide_eq_true (Bool.and_eq_true_iff.mp hnew).1

theorem PortIf.FlagsOk.forceLatch (h : pi.FlagsOk) (v : BitVec 7) : (pi.forceLatch v).FlagsOk where
  faultLatched := (h.setLatch v).faultLatched
  faultEmpty := h.faultEmpty
  overflowMark hmark := (h.setLatch v).overflowMark (Bool.and_eq_true_iff.mp hmark).1

theorem PortIf.FlagsOk.latchFault (h : pi.FlagsOk) (code : FaultCode) (a : Option ApIdx) : (pi.latchFault code a).FlagsOk where
  faultLatched _ := or_self_and_ne_zero (by decide) pi.latch
  faultEmpty hcode := by
    unfold PortIf.latchFault at hcode
    dsimp only at hcode
    split at hcode
    · cases hcode
    · rename_i hsome
      exact nomatch hsome.symm.trans hcode
  overflowMark := (h.setLatch bitFault).overflowMark

/-- A host's clear of FAULT empties the fault record, and one of OVERFLOW removes the mark (R162). -/
theorem PortIf.FlagsOk.clearLatch (h : pi.FlagsOk) (v : BitVec 7) : (pi.clearLatch v).FlagsOk where
  faultLatched hcode := by
    unfold PortIf.clearLatch at hcode ⊢
    dsimp only at hcode ⊢
    split at hcode
    · exact absurd rfl hcode
    · rename_i hkept
      rw [and_not_and_eq (by simpa using hkept)]
      exact h.faultLatched hcode
  faultEmpty hcode := by
    unfold PortIf.clearLatch at hcode ⊢
    dsimp only at hcode ⊢
    split
    · rfl
    · rename_i hkept
      rw [if_neg hkept] at hcode
      exact h.faultEmpty hcode
  overflowMark hmark := by
    unfold PortIf.clearLatch at hmark ⊢
    dsimp only at hmark ⊢
    split at hmark
    · cases hmark
    · rename_i hkept
      rw [if_neg hkept, and_not_and_eq (by simpa using hkept)]
      exact h.overflowMark hmark

/-- A clear taken by the Notification Unit removes the mark, and leaves FAULT (R132). -/
theorem PortIf.FlagsOk.overflowCleared (h : pi.FlagsOk) : pi.overflowCleared.FlagsOk where
  faultLatched hcode := by
    unfold PortIf.overflowCleared
    dsimp only
    split
    · rw [and_not_and_eq (by decide)]
      exact h.faultLatched hcode
    · exact h.faultLatched hcode
  faultEmpty := h.faultEmpty
  overflowMark := nofun

end

/-! ### What the agreement asks of each session -/

section
variable {pi pi' : PortIf} {c : Pending}

/-- A READY slot holds no command. -/
theorem forall_held_of_ready {P : Pending → Prop} (h : pi.slot = none) (c : Pending) (hslot : pi.slot = some c) : P c := by
  rw [h] at hslot
  cases hslot

/-- An OFFLINE port as device reset leaves it, but for what other blocks have handed or been handed (R150, R166). -/
theorem ok_offline (l : List Notice) (k n : Nat) :
    PortIf.Ok { PortIf.offline false with notices := l, crossings := k, overflowClears := n } := by
  have hflags : PortIf.FlagsOk { PortIf.offline false with notices := l, crossings := k, overflowClears := n } :=
    flagsOk_of_empty rfl rfl
  exact ⟨rfl, hflags.faultLatched, hflags.faultEmpty, hflags.overflowMark⟩

theorem PortIf.Ok.eq_of_offline (h : pi.Ok) (hsession : pi.session = .offline) :
    pi = { PortIf.offline false with
      notices := pi.notices, crossings := pi.crossings, overflowClears := pi.overflowClears } := by
  have hok := h.session
  rwa [hsession] at hok

theorem PortIf.Ok.of_unattached (h : pi.Ok) (hsession : pi.session = .unattached) :
    pi.presence = true ∧ ∀ c, pi.slot = some c → c.req = .att ∧ c.stage = .atPort := by
  have hok := h.session
  rwa [hsession] at hok

theorem PortIf.Ok.of_attached (h : pi.Ok) (hsession : pi.session = .attached) :
    pi.presence = true ∧ ∀ c, pi.slot = some c → c.stage ≠ .detach := by
  have hok := h.session
  rwa [hsession] at hok

theorem PortIf.Ok.of_await (h : pi.Ok) (hsession : pi.session = .teardown .await) :
    ∃ c, pi.slot = some c ∧ c.stage ≠ .detach := by
  have hok := h.session
  rwa [hsession] at hok

theorem PortIf.Ok.of_teardown (h : pi.Ok) {k : TeardownStep} (hk : k ≠ .await) (hsession : pi.session = .teardown k) :
    ∀ c, pi.slot = some c → c.req = .det ∧ c.stage = .detach := by
  have hok := h.session
  rw [hsession] at hok
  cases k with
  | await => exact absurd rfl hk
  | _ => exact hok

theorem PortIf.FlagsOk.ok_unattached (h : pi.FlagsOk) (hsession : pi.session = .unattached) (hpresence : pi.presence = true)
    (hslot : ∀ c, pi.slot = some c → c.req = .att ∧ c.stage = .atPort) : pi.Ok :=
  ⟨by rw [hsession]; exact ⟨hpresence, hslot⟩, h.faultLatched, h.faultEmpty, h.overflowMark⟩

theorem PortIf.FlagsOk.ok_attached (h : pi.FlagsOk) (hsession : pi.session = .attached) (hpresence : pi.presence = true)
    (hslot : ∀ c, pi.slot = some c → c.stage ≠ .detach) : pi.Ok :=
  ⟨by rw [hsession]; exact ⟨hpresence, hslot⟩, h.faultLatched, h.faultEmpty, h.overflowMark⟩

theorem PortIf.FlagsOk.ok_await (h : pi.FlagsOk) (hsession : pi.session = .teardown .await) (hslot : pi.slot = some c)
    (hstage : c.stage ≠ .detach) : pi.Ok :=
  ⟨by rw [hsession]; exact ⟨c, hslot, hstage⟩, h.faultLatched, h.faultEmpty, h.overflowMark⟩

theorem PortIf.FlagsOk.ok_teardown (h : pi.FlagsOk) {k : TeardownStep} (hk : k ≠ .await) (hsession : pi.session = .teardown k)
    (hslot : ∀ c, pi.slot = some c → c.req = .det ∧ c.stage = .detach) : pi.Ok := by
  refine ⟨?_, h.faultLatched, h.faultEmpty, h.overflowMark⟩
  rw [hsession]
  cases k with
  | await => exact absurd rfl hk
  | _ => exact hslot

/-- A change in a teardown that leaves its step and the slot; the presence input may change (R150). -/
theorem PortIf.Ok.in_teardown (h : pi.Ok) {k : TeardownStep} (hs : pi.session = .teardown k) (hflags : pi'.FlagsOk)
    (hsession : pi'.session = .teardown k) (hslot : pi'.slot = pi.slot) : pi'.Ok := by
  by_cases hk : k = .await
  · subst hk
    obtain ⟨c, hheld, hstage⟩ := h.of_await hs
    exact hflags.ok_await hsession (hslot.trans hheld) hstage
  · exact hflags.ok_teardown hk hsession (hslot ▸ h.of_teardown hk hs)

/-- A change outside OFFLINE that leaves the session, the presence input and the slot. -/
theorem PortIf.Ok.in_place (h : pi.Ok) (hon : pi.session ≠ .offline) (hflags : pi'.FlagsOk)
    (hsession : pi'.session = pi.session) (hpresence : pi'.presence = pi.presence)
    (hslot : pi'.slot = pi.slot) : pi'.Ok := by
  cases hs : pi.session with
  | offline => exact absurd hs hon
  | unattached =>
    obtain ⟨hpresent, hheld⟩ := h.of_unattached hs
    exact hflags.ok_unattached (hsession.trans hs) (hpresence.trans hpresent) (hslot ▸ hheld)
  | attached =>
    obtain ⟨hpresent, hheld⟩ := h.of_attached hs
    exact hflags.ok_attached (hsession.trans hs) (hpresence.trans hpresent) (hslot ▸ hheld)
  | teardown k => exact h.in_teardown hs hflags (hsession.trans hs) hslot

/-- A port with a command in its slot is not OFFLINE (R149). -/
theorem PortIf.Ok.on_of_slot (h : pi.Ok) (hslot : pi.slot = some c) : pi.session ≠ .offline := fun hsession => by
  rw [h.eq_of_offline hsession] at hslot
  cases hslot

/-! ### Changes of a Port Interface -/

/-- What other blocks hand to a Port Interface is no part of its own agreement (log entry 17). -/
theorem PortIf.Ok.handed (h : pi.Ok) (l : List Notice) (k : Nat) : PortIf.Ok { pi with notices := l, crossings := k } := by
  by_cases hsession : pi.session = .offline
  · rw [h.eq_of_offline hsession]
    exact ok_offline _ _ _
  · exact h.in_place hsession (h.flags.congr rfl rfl rfl rfl) rfl rfl rfl

theorem PortIf.Ok.complete (h : pi.Ok) (hon : pi.session ≠ .offline) (hawait : pi.session ≠ .teardown .await) (st : Status)
    (rw : Results) : (pi.complete st rw).Ok := by
  have hflags : (pi.complete st rw).FlagsOk := (h.flags.setLatch bitDone).congr rfl rfl rfl rfl
  cases hsession : pi.session with
  | offline => exact absurd hsession hon
  | unattached => exact hflags.ok_unattached hsession (h.of_unattached hsession).1 (forall_held_of_ready rfl)
  | attached => exact hflags.ok_attached hsession (h.of_attached hsession).1 (forall_held_of_ready rfl)
  | teardown k => exact hflags.ok_teardown (fun hk => hawait (hk ▸ hsession)) hsession (forall_held_of_ready rfl)

theorem PortIf.Ok.discardCompletion (h : pi.Ok) : pi.discardCompletion.Ok :=
  PortIf.FlagsOk.ok_teardown (k := .store) (h.flags.congr rfl rfl rfl rfl) nofun rfl (forall_held_of_ready rfl)

/-- A clear of OVERFLOW taken in OFFLINE finds no mark there (log entry 18). -/
theorem PortIf.Ok.overflowCleared (h : pi.Ok) : pi.overflowCleared.Ok := by
  by_cases hsession : pi.session = .offline
  · rw [h.eq_of_offline hsession]
    exact ok_offline _ _ _
  · exact h.in_place hsession h.flags.overflowCleared rfl rfl rfl

theorem PortIf.Ok.noticed (h : pi.Ok) (b : BitVec 7) : (pi.noticed b).Ok := by
  unfold PortIf.noticed
  split
  · rename_i hsession
    exact h.in_place (hsession ▸ nofun) (h.flags.setLatch b) rfl rfl rfl
  · exact h

theorem ok_goOffline (pi : PortIf) : pi.goOffline.Ok := ok_offline _ _ _

theorem ok_afterReset (presence : Bool) : (PortIf.afterReset presence).Ok := by
  cases presence with
  | false => exact ok_offline _ _ _
  | true => exact (flagsOk_of_empty rfl rfl).ok_unattached rfl rfl (forall_held_of_ready rfl)

theorem PortIf.Ok.presenceRises (h : pi.Ok) : pi.presenceRises.Ok := by
  unfold PortIf.presenceRises
  split
  · rename_i hsession
    refine PortIf.FlagsOk.ok_unattached (h.flags.congr rfl rfl rfl rfl) rfl rfl fun c hslot => ?_
    exact absurd hsession (h.on_of_slot hslot)
  · rename_i hsession
    exact h.in_place (hsession ▸ nofun) (h.flags.congr rfl rfl rfl rfl) rfl (h.of_unattached hsession).1.symm rfl
  · rename_i hsession
    exact h.in_place (hsession ▸ nofun) (h.flags.congr rfl rfl rfl rfl) rfl (h.of_attached hsession).1.symm rfl
  · rename_i hsession
    exact h.in_teardown hsession (h.flags.congr rfl rfl rfl rfl) hsession rfl

theorem PortIf.Ok.presenceFalls (h : pi.Ok) : pi.presenceFalls.Ok := by
  unfold PortIf.presenceFalls
  split
  · rename_i hsession
    rw [h.eq_of_offline hsession]
    exact ok_offline _ _ _
  · exact ok_goOffline pi
  · rename_i hsession
    cases hslot : pi.slot with
    | none => exact PortIf.FlagsOk.ok_teardown (k := .store) (h.flags.congr rfl rfl rfl rfl) nofun rfl (forall_held_of_ready rfl)
    | some c => exact PortIf.FlagsOk.ok_await (h.flags.congr rfl rfl rfl rfl) rfl rfl ((h.of_attached hsession).2 c hslot)
  · rename_i hsession
    exact h.in_teardown hsession (h.flags.congr rfl rfl rfl rfl) hsession rfl

/-- A teardown past the command in flight goes from step to step with the same slot (R153, R154). -/
theorem PortIf.Ok.advance (h : pi.Ok) {k k' : TeardownStep} (hsession : pi.session = .teardown k) (hk : k ≠ .await)
    (hk' : k' ≠ .await) : PortIf.Ok { pi with session := .teardown k' } :=
  PortIf.FlagsOk.ok_teardown (h.flags.congr rfl rfl rfl rfl) hk' rfl (h.of_teardown hk hsession)

theorem ok_endTeardown (pi : PortIf) : pi.endTeardown.Ok := by
  unfold PortIf.endTeardown
  split
  · rename_i hpresence
    dsimp only
    split
    · exact PortIf.FlagsOk.ok_unattached (flagsOk_of_empty rfl rfl) rfl hpresence (forall_held_of_ready rfl)
    · rename_i hready
      refine PortIf.FlagsOk.ok_unattached (flagsOk_of_empty rfl rfl) rfl hpresence fun c hslot => ?_
      exact absurd (Option.isSome_of_mem hslot) hready
  · exact ok_goOffline pi

/-- An ATT in UNATTACHED attaches with the ATT still in the slot (R151, log entry 16). -/
theorem PortIf.Ok.attach (h : pi.Ok) (hsession : pi.session = .unattached) : PortIf.Ok { pi with session := .attached } := by
  obtain ⟨hpresence, hslot⟩ := h.of_unattached hsession
  refine PortIf.FlagsOk.ok_attached (h.flags.congr rfl rfl rfl rfl) rfl hpresence fun c hheld => ?_
  rw [(hslot c hheld).2]
  exact nofun

/-- A DET in ATTACHED begins the teardown and waits in the slot for its end (R152). -/
theorem PortIf.Ok.detach (h : pi.Ok) (hreq : c.req = .det) (hstage : c.stage = .detach) :
    PortIf.Ok { pi with session := .teardown .store, slot := some c } := by
  refine PortIf.FlagsOk.ok_teardown (h.flags.congr rfl rfl rfl rfl) (k := .store) nofun rfl fun d hd => ?_
  cases hd
  exact ⟨hreq, hstage⟩

/-- A command takes a READY slot: only ATT in UNATTACHED (R156). -/
theorem PortIf.Ok.takeSlot (h : pi.Ok) (hstage : c.stage ≠ .detach)
    (hsession : pi.session = .attached ∨ pi.session = .unattached ∧ c.req = .att ∧ c.stage = .atPort) :
    PortIf.Ok { pi with slot := some c } := by
  have hflags : PortIf.FlagsOk { pi with slot := some c } := h.flags.congr rfl rfl rfl rfl
  rcases hsession with hsession | ⟨hsession, hatt⟩
  · exact hflags.ok_attached hsession (h.of_attached hsession).1 fun d hd => by cases hd; exact hstage
  · exact hflags.ok_unattached hsession (h.of_unattached hsession).1 fun d hd => by cases hd; exact hatt

/-- A command that has left the Port Interface on its path finds its port ATTACHED, or in a teardown that awaits it (R153). -/
theorem PortIf.Ok.session_of_path (h : pi.Ok) (hslot : pi.slot = some c) (hleft : c.stage ≠ .atPort)
    (hstage : c.stage ≠ .detach) : pi.session = .attached ∨ pi.session = .teardown .await := by
  cases hsession : pi.session with
  | offline => exact absurd hsession (h.on_of_slot hslot)
  | unattached => exact absurd ((h.of_unattached hsession).2 c hslot).2 hleft
  | attached => exact .inl rfl
  | teardown k =>
    by_cases hk : k = .await
    · exact .inr (congrArg Session.teardown hk)
    · exact absurd (h.of_teardown hk hsession c hslot).2 hstage

/-- Such a command goes on to another place of its path. -/
theorem PortIf.Ok.moveOn (h : pi.Ok) (hslot : pi.slot = some c) (hleft : c.stage ≠ .atPort) (hstage : c.stage ≠ .detach)
    {d : Pending} (hnext : d.stage ≠ .detach) : PortIf.Ok { pi with slot := some d } := by
  have hflags : PortIf.FlagsOk { pi with slot := some d } := h.flags.congr rfl rfl rfl rfl
  rcases h.session_of_path hslot hleft hstage with hsession | hsession
  · exact hflags.ok_attached hsession (h.of_attached hsession).1 fun e he => by cases he; exact hnext
  · exact hflags.ok_await hsession rfl hnext

end

end Sys2Proof.Machine
end

section
/-! PROOF. Every step keeps the claim, the Port Interfaces and the grants legal (O51): what the shared operations and then the
rows make of the four Port Interfaces. -/

namespace Sys2Proof.Machine

/-! ### Shared operations -/

section
variable {s t u : State} {p : Port} {c : Pending}

theorem State.PortsOk.congr (h : s.PortsOk) (ports : t.ports = s.ports) : t.PortsOk := fun q => by
  rw [State.port, ports]
  exact h q

theorem State.PortsOk.updatePort (h : s.PortsOk) {f : PortIf → PortIf} (hok : (f (s.port p)).Ok)
    (hnotices : ∀ n ∈ (f (s.port p)).notices, n ∈ (s.port p).notices) :
    (s.updatePort p f).PortsOk := fun q => by
  rw [State.port_updatePort]
  split
  · rename_i hq
    subst hq
    exact ⟨hok, fun hpeer => (h p).2 (hnotices _ hpeer)⟩
  · exact h q

/-- A change of a port outside OFFLINE that leaves its session, its presence input, its slot and its notices. -/
theorem State.PortsOk.updateInPlace (h : s.PortsOk) (hon : (s.port p).session ≠ .offline) {f : PortIf → PortIf}
    (hflags : (s.port p).FlagsOk → (f (s.port p)).FlagsOk) (hsession : (f (s.port p)).session = (s.port p).session)
    (hpresence : (f (s.port p)).presence = (s.port p).presence) (hslot : (f (s.port p)).slot = (s.port p).slot)
    (hnotices : (f (s.port p)).notices = (s.port p).notices) : (s.updatePort p f).PortsOk :=
  h.updatePort ((h p).1.in_place hon (hflags (h p).1.flags) hsession hpresence hslot) fun _ hn => hnotices ▸ hn

/-- Notices and crossings handed to the ports, none of them a peer notice of the port's own. -/
theorem State.PortsOk.hand (h : s.PortsOk) {f : Port → PortIf → PortIf}
    (hf : ∀ q pi, f q pi = { pi with notices := (f q pi).notices, crossings := (f q pi).crossings })
    (hpeer : ∀ q pi, .peer q ∈ (f q pi).notices → .peer q ∈ pi.notices) : (s.mapPorts f).PortsOk := fun q => by
  obtain ⟨hok, hnot⟩ := h q
  rw [State.port_mapPorts]
  exact ⟨hf q _ ▸ hok.handed _ _, fun hmem => hnot (hpeer q _ hmem)⟩

theorem State.PortsOk.arbitrate (h : s.PortsOk) : s.arbitrate.PortsOk := h.congr (by rw [arbitrate_frame])

theorem State.PortsOk.withInput (h : s.PortsOk) (l : List NuItem) : State.PortsOk { s with nuInput := l } := h.congr rfl

theorem State.PortsOk.toNotify (h : s.PortsOk) (x : NuItem) : (s.toNotify x).PortsOk := h.congr rfl

theorem State.PortsOk.handPeerNotice (h : s.PortsOk) (p : Port) : (s.handPeerNotice p).PortsOk := by
  refine h.hand (fun q pi => by split <;> rfl) fun q pi hmem => ?_
  split at hmem
  · exact hmem
  · rename_i hq
    rcases List.mem_append.mp hmem with hmem | hmem
    · exact hmem
    · exact absurd (Notice.peer.inj (List.mem_singleton.mp hmem)) hq

theorem State.PortsOk.moveClaim (h : s.PortsOk) (holder : Option Port) (l : List Port) : (s.moveClaim holder l).PortsOk := by
  have hclaim : (State.toNotify { s with holder := holder, waiters := l } (.port (.claimMoved holder s.timeBase))).PortsOk :=
    h.congr rfl
  refine hclaim.hand (fun _ _ => rfl) fun q pi hmem => ?_
  rcases List.mem_append.mp hmem with hmem | hmem
  · exact hmem
  · exact nomatch List.mem_singleton.mp hmem

theorem State.PortsOk.passClaim (h : s.PortsOk) : s.passClaim.PortsOk := by
  unfold State.passClaim
  split <;> exact h.moveClaim _ _

theorem State.PortsOk.claim (h : s.PortsOk) (p : Port) (wait : Bool) : (s.claim p wait).1.PortsOk := by
  unfold State.claim
  split_ifs
  · exact h.moveClaim _ _
  all_goals exact h.congr rfl

theorem State.PortsOk.release (h : s.PortsOk) (p : Port) : (s.release p).1.PortsOk := by
  unfold State.release
  split_ifs
  · exact h.passClaim
  all_goals exact h.congr rfl

theorem State.PortsOk.releaseAtTeardown (h : s.PortsOk) (p : Port) : (s.releaseAtTeardown p).PortsOk := by
  unfold State.releaseAtTeardown
  split_ifs
  · exact h.passClaim
  · exact h.congr rfl

theorem State.PortsOk.endStoreEvent (h : u.PortsOk) (s : State) : (s.endStoreEvent u).PortsOk := by
  have hfree : State.PortsOk { u with granted := none } := h.congr rfl
  unfold State.endStoreEvent
  dsimp only
  split
  · exact hfree.hand (fun _ _ => rfl) fun _ _ hmem => hmem
  · exact hfree

/-- A port completes the command in its slot, or discards the completion where its teardown awaits it (R153, R157). -/
theorem State.PortsOk.complete (h : s.PortsOk) (hslot : (s.port p).slot = some c) (st : Status) (rw : Results) :
    (s.complete p st rw).PortsOk := by
  obtain ⟨hok, -⟩ := h p
  refine (h.updatePort ?_ fun n hn => ?_).arbitrate
  · split
    · exact hok.discardCompletion
    · rename_i hawait
      exact hok.complete (hok.on_of_slot hslot) hawait st rw
  · split at hn <;> exact hn

theorem ports_of_besidesPool (h : t.besidesPool = s.besidesPool) : t.ports = s.ports := (congrArg State.ports h :)

theorem ports_publishMember (s : State) (p : Port) (retain : Bool) (a : ApIdx) :
    (s.publishMember p retain a).ports = s.ports := by
  unfold State.publishMember
  split
  · rw [ports_of_besidesPool (besidesPool_endMember ..), makeCurrent_eq, leaveCurrent_frame]
    rfl
  · rfl

/-- SC's work on a command reaches no Port Interface; the end of its store event does. -/
theorem StoreAnswer.ports {i : Instr} {r : Answered} (hr : StoreAnswer s p i r) : r.1.ports = s.ports := by
  cases hr with
  | ord mask locals ans =>
    unfold State.openRead
    split
    · rfl
    · exact ports_of_besidesPool (foldl_keeps s State.besidesPool _ (by simp) _)
  | ref mask =>
    unfold State.refresh
    split
    · rfl
    · exact ports_of_besidesPool (foldl_keeps s State.besidesPool _ (by simp) _)
  | owr l a zero ans =>
    unfold State.openWrite
    split
    · rfl
    · rfl
    · dsimp only
      split
      · rfl
      · rename_i hu
        obtain ⟨rest, -, rfl⟩ := (allocate_eq_some _ _ _ _ _ _).mp hu
        rfl
  | pub mask conditional retain ans =>
    unfold State.publish
    split
    · rfl
    · split
      · rfl
      · exact foldl_keeps s State.ports _ (fun u a => ports_publishMember u p retain a) _
  | cls mask => exact ports_of_besidesPool (besidesPool_closeAll s p _)
  | ins ans =>
    unfold State.inspect
    split
    · rfl
    · split <;> rfl
  | pst => rfl
  | define gid length producer period grace =>
    unfold State.defineEntry
    split
    · dsimp only; split <;> rfl
    · rfl
  | wdr gid =>
    cases he : entryOf gid with
    | none => simp only [State.withdrawEntry, he]; rfl
    | some e =>
      by_cases hdef : (s.entry e).state = .undefined
      · simp only [State.withdrawEntry, he, if_pos hdef]; rfl
      · rw [withdrawEntry_eq he hdef, withdrawn_frame]
  | sfr gid period grace =>
    unfold State.setFreshness
    split
    · rfl
    · dsimp only; split <;> rfl
  | spt threshold =>
    unfold State.setThreshold
    split <;> rfl

/-! ### Host writes -/

theorem State.PortsOk.writePort (h : s.PortsOk) (p : Port) {f : PortIf → PortIf}
    (hflags : ∀ pi, pi.FlagsOk → (f pi).FlagsOk) (hsession : ∀ pi, (f pi).session = pi.session)
    (hpresence : ∀ pi, (f pi).presence = pi.presence)
    (hslot : ∀ pi, (f pi).slot = pi.slot) (hnotices : ∀ pi, (f pi).notices = pi.notices) : (s.writePort p f).PortsOk := by
  unfold State.writePort
  split
  · exact h
  · rename_i hon
    exact h.updateInPlace hon (hflags _) (hsession _) (hpresence _) (hslot _) (hnotices _)

theorem State.PortsOk.completeNow (h : s.PortsOk) (hon : (s.port p).session ≠ .offline) (hready : (s.port p).slot = none)
    (st : Status) : (s.completeNow p st).PortsOk := by
  refine h.updatePort ((h p).1.complete hon (fun hawait => ?_) st noResults) fun _ hn => hn
  obtain ⟨c, hslot, -⟩ := (h p).1.of_await hawait
  exact nomatch hready.symm.trans hslot

theorem firstStage_ne_detach (req : Request) : req.firstStage ≠ .detach := by
  cases req <;> exact nofun

theorem State.PortsOk.takeSlot (h : s.PortsOk) {req : Request}
    (hsession : (s.port p).session = .attached ∨ (s.port p).session = .unattached ∧ req = .att) :
    (s.takeSlot p req).PortsOk := by
  have htaken : ∀ c : Pending, c.req = req → c.stage = req.firstStage →
      (s.updatePort p fun pi => { pi with slot := some c }).PortsOk := fun c hreq hstage => by
    refine h.updatePort ((h p).1.takeSlot (hstage ▸ firstStage_ne_detach req) (hsession.imp_right ?_)) fun _ hn => hn
    rintro ⟨hunattached, rfl⟩
    exact ⟨hunattached, hreq, hstage⟩
  unfold State.takeSlot
  dsimp only
  split
  · exact ((htaken _ rfl rfl).toNotify _).arbitrate
  · exact (htaken _ rfl rfl).arbitrate

theorem State.PortsOk.arrive (h : s.PortsOk) (hready : (s.port p).slot = none) (req : Request) : (s.arrive p req).PortsOk := by
  unfold State.arrive
  split
  · exact h
  · rename_i hsession
    split
    · rename_i hreq
      have hdropped : (s.updatePort p PortIf.dropNotices).PortsOk := h.updatePort ((h p).1.handed [] 0) nofun
      refine hdropped.takeSlot (.inr ⟨?_, hreq⟩)
      rw [State.port_updatePort, if_pos rfl]
      exact hsession
    · exact h.completeNow (hsession ▸ nofun) hready _
  · rename_i hsession
    exact h.completeNow (hsession ▸ nofun) hready _
  · rename_i hsession
    split
    · exact h.completeNow (hsession ▸ nofun) hready _
    · exact h.takeSlot (.inl hsession)

theorem State.PortsOk.writeCommand (h : s.PortsOk) (p : Port) (v : Word) : (s.writeCommand p v).PortsOk := by
  unfold State.writeCommand
  dsimp only
  split
  · exact h
  · rename_i hon
    have hkept : (s.updatePort p fun pi => { pi with cmdWord := v }).PortsOk :=
      h.updateInPlace hon (fun hflags => hflags.congr rfl rfl rfl rfl) rfl rfl rfl rfl
    have hport : (s.updatePort p fun pi => { pi with cmdWord := v }).port p = { s.port p with cmdWord := v } := by
      rw [State.port_updatePort, if_pos rfl]
    split
    · exact hkept.updateInPlace (hport ▸ hon) (·.latchFault .commandOverrun none) rfl rfl rfl rfl
    · rename_i hready
      exact hkept.arrive (by rw [hport]; exact hready) _

theorem State.PortsOk.writeData (h : s.PortsOk) (p : Port) (a : ApIdx) (w : WordIdx) (v : Word) :
    (s.writeData p a w v).PortsOk := by
  unfold State.writeData
  dsimp only
  split
  · exact h
  · rename_i hon
    have hfault : ∀ code, (s.setPort p ((s.port p).latchFault code (some a))).PortsOk := fun code =>
      h.updateInPlace (f := (·.latchFault code (some a))) hon (·.latchFault code (some a)) rfl rfl rfl rfl
    split
    · exact hfault _
    · split
      · exact hfault _
      · exact hfault _
      all_goals split <;> exact h.congr rfl

theorem State.PortsOk.takeRecord (h : s.PortsOk) (p : Port) : (s.takeRecord p).PortsOk := by
  unfold State.takeRecord
  split
  · exact h
  · exact h.congr rfl

theorem State.PortsOk.writeLatch (h : s.PortsOk) (p : Port) (v : BitVec 7) : (s.writePort p (·.clearLatch v)).PortsOk :=
  h.writePort p (fun _ => (·.clearLatch v)) (fun _ => rfl) (fun _ => rfl) (fun _ => rfl) fun _ => rfl

theorem State.PortsOk.writeForce (h : s.PortsOk) (p : Port) (v : BitVec 7) : (s.writePort p (·.forceLatch v)).PortsOk :=
  h.writePort p (fun _ => (·.forceLatch v)) (fun _ => rfl) (fun _ => rfl) (fun _ => rfl) fun _ => rfl

theorem State.PortsOk.writeMask (h : s.PortsOk) (p : Port) (v : BitVec 7) :
    (s.writePort p fun pi => { pi with mask := v }).PortsOk :=
  h.writePort p (fun _ hflags => hflags.congr rfl rfl rfl rfl) (fun _ => rfl) (fun _ => rfl) (fun _ => rfl) fun _ => rfl

theorem State.PortsOk.writeParam (h : s.PortsOk) (p : Port) (i : Fin 4) (v : Word) :
    (s.writePort p fun pi => { pi with params := pi.params.set i v }).PortsOk :=
  h.writePort p (fun _ hflags => hflags.congr rfl rfl rfl rfl) (fun _ => rfl) (fun _ => rfl) (fun _ => rfl) fun _ => rfl

theorem State.PortsOk.writeWindowWord (h : s.PortsOk) (p : Port) (x : WindowWord) (v : Word) :
    (s.writeWindowWord p x v).PortsOk := by
  cases x with
  | command => exact h.writeCommand p v
  | param i => exact h.writeParam p i v
  | latch => exact h.writeLatch p _
  | mask => exact h.writeMask p _
  | force => exact h.writeForce p _
  | take => exact h.takeRecord p
  | apData a w => exact h.writeData p a w v
  | _ => exact h

/-! ### Records -/

theorem State.PortsOk.setRing (h : s.PortsOk) (p : Port) (r : Ring) : (s.setRing p r).PortsOk := h.congr rfl

theorem State.PortsOk.setNotify (h : s.PortsOk) (hon : (s.port p).session ≠ .offline) :
    (s.updatePort p (·.setLatch bitNotify)).PortsOk :=
  h.updateInPlace hon (·.setLatch bitNotify) rfl rfl rfl rfl

theorem State.PortsOk.appendRecord (h : s.PortsOk) (hon : (s.port p).session ≠ .offline) (x : Record) :
    (s.appendRecord p x).PortsOk := by
  rcases appendRecord_cases s p x with ⟨-, heq⟩ | ⟨-, heq⟩ <;> rw [heq]
  · exact (h.setRing p _).setNotify hon
  · exact (h.setRing p _).updateInPlace hon (·.raiseOverflow) rfl rfl rfl rfl

theorem State.PortsOk.routeEntry (h : s.PortsOk) (r : EntryReport) (p : Port) : (s.routeEntry r p).PortsOk := by
  unfold State.routeEntry
  split
  · rename_i hcandidate
    have hon : (s.port p).session ≠ .offline := by rw [(isCandidate_iff.mp hcandidate).1]; exact nofun
    split
    · unfold State.deliver
      dsimp only
      split
      · exact (h.setRing p _).setNotify hon
      · exact h.appendRecord hon _
    · exact h
  · exact h

theorem State.PortsOk.routePort (h : s.PortsOk) (r : PortReport) (p : Port) : (s.routePort r p).PortsOk := by
  unfold State.routePort
  split
  · rename_i hfor
    exact h.appendRecord (hfor.1 ▸ nofun) _
  · exact h

/-- What keeps the ports at every step of a fold keeps them over the fold. -/
theorem State.PortsOk.foldl {α : Type} {f : State → α → State} (hf : ∀ u a, State.PortsOk u → (f u a).PortsOk) (l : List α)
    (h : s.PortsOk) : (l.foldl f s).PortsOk :=
  List.foldlRecOn l f h fun u hu a _ => hf u a hu

/-! ### The rows -/

/-- The owning block of a command has done its work on the way from `s` to `u`, and the command completes. -/
theorem State.PortsOk.completes (h : u.PortsOk) (posted : Posted s u) {k : Stage} (hcommand : s.commandAt p k = some c)
    (st : Status) (rw : Results) : (u.complete p st rw).PortsOk :=
  h.complete ((posted.slot p).trans ((commandAt_eq_some s p k c).mp hcommand).slot) st rw

theorem State.PortsOk.finishStore (h : s.PortsOk) (hcommand : s.storeCommand p = some c) {i : Instr} {r : Answered}
    (hr : StoreAnswer s p i r) : (s.finishStore p r).PortsOk := by
  have hslot := ((storeCommand_eq_some s p c).mp hcommand).slot
  have hposted := hr.posted.trans (posted_endStoreEvent s r.1)
  exact ((h.congr hr.ports).endStoreEvent s).complete ((hposted.slot p).trans hslot) _ _

theorem State.PortsOk.subscribe (h : s.PortsOk) (p : Port) (kinds : Kinds) (coalesce : Bool) (ans : Answer) :
    (s.subscribe p kinds coalesce ans).1.PortsOk := by
  unfold State.subscribe
  split
  · exact h
  · split
    · exact h
    · exact h.congr rfl

theorem execSub_portsOk (h : s.PortsOk) (hexec : execSub p s = .next t) : t.PortsOk := by
  unfold execSub at hexec
  split at hexec
  · rename_i hcommand
    have hslot := ((commandAt_eq_some s p .notify _).mp hcommand).slot
    split at hexec <;> cases hexec
    · apply State.PortsOk.complete
      · exact (h.withInput _).subscribe p _ _ _
      · exact ((posted_subscribe _ p _ _ _).slot p).trans hslot
    · exact h
  · cases hexec; exact h

theorem slot_appendRecord (s : State) (p : Port) (x : Record) (q : Port) :
    ((s.appendRecord p x).port q).slot = (s.port q).slot := by
  rcases appendRecord_cases s p x with ⟨-, heq⟩ | ⟨-, heq⟩ <;> rw [heq] <;>
    exact (posted_updatePort (s.setRing p _) p rfl rfl).slot q

theorem execMrk_portsOk (h : s.PortsOk) (hexec : execMrk p s = .next t) : t.PortsOk := by
  unfold execMrk at hexec
  split at hexec
  · rename_i hcommand
    have hslot := ((commandAt_eq_some s p .notify _).mp hcommand).slot
    split at hexec <;> cases hexec
    · apply State.PortsOk.complete
      · refine (h.withInput _).appendRecord ?_ _
        exact (h p).1.on_of_slot hslot
      · exact (slot_appendRecord _ p _ p).trans hslot
    · exact h
  · cases hexec; exact h

theorem execAtt_portsOk (h : s.PortsOk) (hexec : execAtt p s = .next t) : t.PortsOk := by
  unfold execAtt at hexec
  split at hexec <;> cases hexec
  · rename_i hcommand
    split
    · rename_i hsession
      have hattached : (s.updatePort p fun pi => { pi with session := .attached }).PortsOk :=
        h.updatePort ((h p).1.attach hsession) fun _ hn => hn
      exact (hattached.toNotify _).handPeerNotice p
    · exact h.completes (.refl s) hcommand _ _
  · exact h

theorem execDet_portsOk (h : s.PortsOk) (hexec : execDet p s = .next t) : t.PortsOk := by
  unfold execDet at hexec
  split at hexec
  · rename_i hcommand
    split at hexec <;> cases hexec
    · exact (h.updatePort ((h p).1.detach rfl rfl) fun _ hn => hn).arbitrate
    · exact h.completes (.refl s) hcommand _ _
  · cases hexec; exact h

theorem execCommandTranslation_portsOk (h : s.PortsOk) (hexec : execCommandTranslation p s = .next t) : t.PortsOk := by
  cases hcommand : s.commandAt p .translate with
  | none => simp only [execCommandTranslation, hcommand] at hexec; cases hexec; exact h
  | some c =>
    have hstands := (commandAt_eq_some s p .translate c).mp hcommand
    obtain rfl := Host.Outcome.next.inj (hexec.symm.trans (exec_commandTranslation hstands))
    obtain ⟨hslot, hstage⟩ := hstands
    have hnext : c.req.stageAfterTranslation ≠ .detach := by
      rcases subItems_cases p c.req with ⟨-, hnext, -⟩ | ⟨-, hnext⟩ <;> exact hnext ▸ nofun
    have hmoved : PortIf.Ok { s.port p with slot := some (c.translated s.grants[p]) } :=
      (h p).1.moveOn hslot (hstage ▸ nofun) (hstage ▸ nofun) hnext
    have hupdated : (s.updatePort p fun pi => { pi with slot := some (c.translated s.grants[p]) }).PortsOk :=
      h.updatePort hmoved fun _ hn => hn
    exact State.PortsOk.arbitrate (hupdated.congr rfl)

/-- A port's teardown goes on to its next step. -/
theorem State.PortsOk.advance (h : s.PortsOk) {k : TeardownStep} (hsession : (s.port p).session = .teardown k) (hk : k ≠ .await)
    {k' : TeardownStep} (hk' : k' ≠ .await) : (s.updatePort p fun pi => { pi with session := .teardown k' }).PortsOk :=
  h.updatePort ((h p).1.advance hsession hk hk') fun _ hn => hn

theorem execTeardown_portsOk (h : s.PortsOk)
    (hexec : execTeardownSc p s = .next t ∨ execTeardownCu p s = .next t ∨ execTeardownNu p s = .next t) : t.PortsOk := by
  rcases hexec with hexec | hexec | hexec
  · unfold execTeardownSc at hexec
    split at hexec <;> cases hexec
    · rename_i hturn
      have hclosed : (s.endStoreEvent (s.closeAll p (List.finRange 8))).PortsOk :=
        (h.congr (ports_of_besidesPool (besidesPool_closeAll s p _))).endStoreEvent s
      have hposted := (Posted.of_besidesPool (besidesPool_closeAll s p (List.finRange 8))).trans (posted_endStoreEvent s _)
      exact (hclosed.advance ((hposted.session p).trans hturn.2) nofun (k' := .claim) nofun).arbitrate
    · exact h
  · unfold execTeardownCu at hexec
    split at hexec <;> cases hexec
    · rename_i hsession
      have hreleased := ((posted_releaseAtTeardown s p).session p).trans hsession
      exact ((h.releaseAtTeardown p).advance hreleased nofun (k' := .notify) nofun).toNotify _
    · exact h
  · unfold execTeardownNu at hexec
    split at hexec
    · rename_i q rest _
      split at hexec <;> cases hexec
      · rename_i hturn
        obtain ⟨-, hsession⟩ := hturn
        exact State.PortsOk.advance (h.congr rfl) hsession nofun (k' := .depart) nofun
      · exact h
    · cases hexec; exact h

theorem notices_endTeardown (pi : PortIf) : pi.endTeardown.notices = pi.notices := by
  unfold PortIf.endTeardown
  split
  · dsimp only; split <;> rfl
  · rfl

theorem execDeparture_portsOk (h : s.PortsOk) (hexec : execDeparture p s = .next t) : t.PortsOk := by
  unfold execDeparture at hexec
  split at hexec <;> cases hexec
  · exact ((h.toNotify _).handPeerNotice p).updatePort (ok_endTeardown _) fun _ hn => notices_endTeardown _ ▸ hn
  · exact h

theorem notices_presenceRises (pi : PortIf) : pi.presenceRises.notices = pi.notices := by
  unfold PortIf.presenceRises
  split <;> rfl

theorem notices_presenceFalls (pi : PortIf) : pi.presenceFalls.notices = pi.notices := by
  unfold PortIf.presenceFalls
  split <;> rfl

theorem notices_afterReset (presence : Bool) : (PortIf.afterReset presence).notices = [] := by
  cases presence <;> rfl

theorem notices_noticed (pi : PortIf) (b : BitVec 7) : (pi.noticed b).notices = pi.notices := by rw [noticed_eq]

/-- The oldest notice of a port taken (R143, R151). -/
theorem State.PortsOk.takeNotice (h : s.PortsOk) {n : Notice} {rest : List Notice} (hnotices : (s.port p).notices = n :: rest)
    (b : BitVec 7) : (s.updatePort p fun pi => { pi with notices := rest }.noticed b).PortsOk := by
  refine h.updatePort (((h p).1.handed rest (s.port p).crossings).noticed b) fun m hm => ?_
  rw [notices_noticed] at hm
  exact hnotices ▸ List.mem_cons_of_mem n hm

/-- Every row keeps every Port Interface in agreement. -/
theorem exec_portsOk {i : Instr} (h : s.PortsOk) (hexec : exec i s = .next t) : t.PortsOk := by
  cases i with
  | nop p | badCommand p | rtm p =>
    simp only [exec, execNop, execBadCommand, execRtm] at hexec
    split at hexec <;> cases hexec
    · rename_i hcommand
      exact h.completes (.refl s) hcommand _ _
    · exact h
  | sgr p =>
    simp only [exec, execSgr] at hexec
    split at hexec <;> cases hexec
    · rename_i hcommand
      refine State.PortsOk.completes ?_ (posted_replaceGrant ..) hcommand _ _
      unfold State.replaceGrant
      split <;> exact h.congr rfl
    · exact h
  | rgr p =>
    simp only [exec, execRgr] at hexec
    split at hexec <;> cases hexec
    · rename_i hcommand
      refine State.PortsOk.completes ?_ (posted_readGrant ..) hcommand _ _
      unfold State.readGrant
      split <;> exact h
    · exact h
  | cla p =>
    simp only [exec, execCla] at hexec
    split at hexec <;> cases hexec
    · rename_i hcommand
      exact (h.claim p _).completes (posted_claim s p _) hcommand _ _
    · exact h
  | rel p =>
    simp only [exec, execRel] at hexec
    split at hexec <;> cases hexec
    · rename_i hcommand
      exact (h.release p).completes (posted_release s p) hcommand _ _
    · exact h
  | ord p | ref p | owr p | pub p | cls p | ins p | pst p | define p | wdr p | sfr p | spt p =>
    simp only [exec, execOrd, execRef, execOwr, execPub, execCls, execIns, execPst, execDefine, execWdr, execSfr, execSpt]
      at hexec
    split at hexec <;> cases hexec
    · rename_i hcommand
      exact h.finishStore hcommand (by constructor)
    · exact h
  | sub p => exact execSub_portsOk h hexec
  | mrk p => exact execMrk_portsOk h hexec
  | entryReport =>
    simp only [exec, execEntryReport] at hexec
    split at hexec <;> cases hexec
    · exact State.PortsOk.foldl (fun u q hu => hu.routeEntry _ q) allPorts (h.withInput _)
    · exact h
  | portReport =>
    simp only [exec, execPortReport] at hexec
    split at hexec <;> cases hexec
    · exact State.PortsOk.foldl (fun u q hu => hu.routePort _ q) allPorts (h.withInput _)
    · exact h
  | att p => exact execAtt_portsOk h hexec
  | det p => exact execDet_portsOk h hexec
  | commandTranslation p => exact execCommandTranslation_portsOk h hexec
  | teardownSc p => exact execTeardown_portsOk h (.inl hexec)
  | teardownCu p => exact execTeardown_portsOk h (.inr (.inl hexec))
  | teardownNu p => exact execTeardown_portsOk h (.inr (.inr hexec))
  | departure p => exact execDeparture_portsOk h hexec
  | presenceAsserted p =>
    cases hexec
    exact h.updatePort (h p).1.presenceRises fun _ hn => notices_presenceRises _ ▸ hn
  | presenceDeasserted p =>
    cases hexec
    have hfallen : (s.updatePort p PortIf.presenceFalls).PortsOk :=
      h.updatePort (h p).1.presenceFalls fun _ hn => notices_presenceFalls _ ▸ hn
    split
    · exact hfallen.arbitrate
    · exact hfallen
  | deviceReset =>
    obtain rfl := Host.Outcome.next.inj ((exec_deviceReset s).symm.trans hexec)
    intro q
    rw [port_resetWith, Fin.getElem_fin, Vector.getElem_map]
    exact ⟨ok_afterReset _, notices_afterReset _ ▸ List.not_mem_nil⟩
  | overflowClear p =>
    simp only [exec, execOverflowClear] at hexec
    split at hexec <;> cases hexec
    · exact h
    · exact (h.setRing p _).updatePort (h p).1.overflowCleared fun _ hn => hn
  | commandArrival p v | commandOverrun p v => cases hexec; exact h.writeCommand p v
  | take p v => cases hexec; exact h.takeRecord p
  | dataWordWrite p a w v => cases hexec; exact h.writeData p a w v
  | windowWrite p offset v => cases hexec; exact h.writeWindowWord p _ v
  | latchWord p v => cases hexec; exact h.writeLatch p _
  | maskWord p v => cases hexec; exact h.writeMask p _
  | forceWord p v => cases hexec; exact h.writeForce p _
  | peerNotice p | claimMove p =>
    simp only [exec, execPeerNotice, execClaimMove] at hexec
    split at hexec <;> cases hexec
    · rename_i hnotices
      exact h.takeNotice hnotices _
    · exact h
  | crossing p =>
    simp only [exec, execCrossing] at hexec
    split at hexec <;> cases hexec
    · exact h
    · refine h.updatePort (((h p).1.handed (s.port p).notices ((s.port p).crossings - 1)).noticed bitPoolLow) fun n hn => ?_
      rwa [notices_noticed] at hn
  | millisecondExpiry => cases hexec; exact State.PortsOk.arbitrate (h.congr rfl)
  | tick | staleTransition | emptyExpiry =>
    simp only [exec, execTick, execStaleTransition, execEmptyExpiry] at hexec
    split at hexec <;> injection hexec with hexec <;> subst hexec
    · exact h.congr (by rw [takeTick_frame])
    · exact h

theorem step_portsOk (h : s.PortsOk) (hstep : step s = .next t) : t.PortsOk := by
  unfold step at hstep
  split at hstep
  · obtain rfl := Host.Outcome.next.inj hstep
    unfold State.microsecond
    dsimp only
    split
    · exact State.PortsOk.arbitrate (h.congr rfl)
    · exact h.congr rfl
  · rename_i c rest _
    have hrest : State.PortsOk { s with pending := rest } := h.congr rfl
    exact exec_portsOk hrest hstep

/-- Settles O51: the claim by the Claim Unit's rows, the grants by SGR, and the Port Interfaces row by row. -/
theorem everyStepKeepsClaimPortsAndGrantsLegal : Obligations.EveryStepKeepsClaimPortsAndGrantsLegal :=
  ⟨fun _ _ => step_claimOk, fun _ _ => step_portsOk, fun _ _ => step_grantsOk⟩

end

end Sys2Proof.Machine
end

section
/-! PROOF. The Claim Unit: CLA and REL by the port's relation to the claim (O50), and the teardown's steps at the Claim Unit
and at the Notification Unit (O19). -/

namespace Sys2Proof.Machine

/-! ### The claim moved, joined and left -/

section
variable (s : State) (p : Port)

/-- A move of the claim is handed to every port behind the notices that it has not yet taken (R143, log entry 17). -/
theorem port_moveClaim (holder : Option Port) (l : List Port) (q : Port) :
    (s.moveClaim holder l).port q = { s.port q with notices := (s.port q).notices ++ [.claimMove] } := by
  rw [State.moveClaim, State.port_mapPorts]
  rfl

/-- A move of the claim changes the claim, the input order and the ports only. -/
theorem moveClaim_frame (holder : Option Port) (l : List Port) :
    s.moveClaim holder l =
      { s with
        holder := holder
        waiters := l
        nuInput := s.nuInput ++ [.port (.claimMoved holder s.timeBase)]
        ports := (s.moveClaim holder l).ports } := rfl

/-- The oldest waiter becomes the holder, NONE where nobody waits (R141). -/
theorem passClaim_eq : s.passClaim = s.moveClaim s.waiters.head? s.waiters.tail := by
  unfold State.passClaim
  split <;> rename_i hwaiters <;> rw [hwaiters] <;> rfl

theorem release_of_holder {s : State} {p : Port} (h : s.holder = some p) :
    s.release p = (s.moveClaim s.waiters.head? s.waiters.tail, .ok) := by
  rw [State.release, if_pos h, passClaim_eq]

/-- A port that does not hold the claim leaves the wait list, where it stands there (R141, R142). -/
theorem release_of_not_holder {s : State} {p : Port} (h : s.holder ≠ some p) :
    s.release p = ({ s with waiters := s.waiters.erase p }, if p ∈ s.waiters then .ok else .noClaim) := by
  rw [State.release, if_neg h]
  split
  · rfl
  · rename_i hp
    rw [List.erase_of_not_mem hp]

/-- A waiter that asks again keeps its place, and a port that does not wait is refused (R139). -/
theorem claim_of_held {s : State} {p : Port} {wait : Bool} (hheld : s.holder ≠ none) (hholder : s.holder ≠ some p)
    (h : p ∈ s.waiters ∨ wait = false) : s.claim p wait = (s, if wait then .queued else .claimHeld) := by
  rw [State.claim, if_neg hheld, if_neg hholder]
  cases wait with
  | false => rfl
  | true => simp [h.resolve_right nofun]

/-- A port that neither holds the claim nor waits joins the tail of the wait list with WAIT (R139). -/
theorem claim_joins {s : State} {p : Port} (hheld : s.holder ≠ none) (hholder : s.holder ≠ some p) (hp : p ∉ s.waiters) :
    s.claim p true = ({ s with waiters := s.waiters ++ [p] }, .queued) := by
  rw [State.claim, if_neg hheld, if_neg hholder, if_neg nofun, if_neg hp]

end

/-! ### The results of CLA and REL -/

section
variable {s : State} {p : Port}

/-- The holder and the place of the port as one number (R139, Table 10-5). -/
theorem claimResults_eq (h : s.waitPlace p < 4) :
    s.claimResults p =
      #v[BitVec.ofNat 32 ((portCode s.holder).toNat + 256 * s.waitPlace p), 0, 0, 0, 0, 0, 0, 0, 0, 0] := by
  have hword : 0#16 ++ BitVec.ofNat 8 (s.waitPlace p) ++ portCode s.holder =
      BitVec.ofNat 32 ((portCode s.holder).toNat + 256 * s.waitPlace p) := by
    have := (portCode s.holder).isLt
    apply BitVec.eq_of_toNat_eq
    simp only [toNat_append_eq, BitVec.toNat_ofNat]
    omega
  rw [State.claimResults, hword, resultWords_eq]
  rfl

theorem holderResult_eq (s : State) :
    s.holderResult = #v[BitVec.ofNat 32 (portCode s.holder).toNat, 0, 0, 0, 0, 0, 0, 0, 0, 0] := by
  have hword : 0#24 ++ portCode s.holder = BitVec.ofNat 32 (portCode s.holder).toNat := by
    have := (portCode s.holder).isLt
    apply BitVec.eq_of_toNat_eq
    simp only [toNat_append_eq, BitVec.toNat_ofNat]
    omega
  rw [State.holderResult, hword, resultWords_eq]
  rfl

theorem toNat_portCode_some (h : Port) : (portCode (some h)).toNat = h.val := toNat_portCode (some h)

/-! ### The rows of the Claim Unit -/

theorem exec_cla {c : Pending} {wait : Bool} (h : s.standsAt p c .claim) (hreq : c.req = .cla wait) :
    exec (.cla p) s =
      let r := s.claim p wait
      .next (r.1.complete p r.2 (r.1.claimResults p)) := by
  obtain ⟨req, stage, locals, answers⟩ := c
  subst hreq
  simp only [exec, execCla, (commandAt_eq_some s p .claim _).mpr h]

theorem exec_rel {c : Pending} (h : s.standsAt p c .claim) (hreq : c.req = .rel) :
    exec (.rel p) s =
      let r := s.release p
      .next (r.1.complete p r.2 r.1.holderResult) := by
  obtain ⟨req, stage, locals, answers⟩ := c
  subst hreq
  simp only [exec, execRel, (commandAt_eq_some s p .claim _).mpr h]

/-- A CLA answered in state `u` under holder `h` completes with that holder and the port's place there. -/
theorem exec_cla_held {c : Pending} {wait : Bool} (hstands : s.standsAt p c .claim) (hreq : c.req = .cla wait) {u : State}
    {st : Status} (hu : s.claim p wait = (u, st)) (hclaim : u.ClaimOk) {h : Port} (hholder : u.holder = some h) :
    exec (.cla p) s =
      .next (u.complete p st #v[BitVec.ofNat 32 (h.val + 256 * u.waitPlace p), 0, 0, 0, 0, 0, 0, 0, 0, 0]) := by
  rw [exec_cla hstands hreq, hu]
  dsimp only
  rw [claimResults_eq (hclaim.waitPlace_lt p), hholder, toNat_portCode_some]

end

/-- Settles O50: the relation of the port to the claim chooses the branch of `State.claim` and of `State.release`. -/
theorem claimCommandsFollowTheRelation : Obligations.ClaimCommandsFollowTheRelation := by
  refine ⟨fun s p c wait hclaim hstands hreq => ⟨fun hfree => ?_, fun h hholder => ⟨?_, fun hne hkept => ?_, ?_⟩⟩,
    fun s p c hstands hreq => ⟨fun hholder => ?_, fun hholder => ?_⟩⟩
  · have hu : s.claim p wait = (s.moveClaim (some p) s.waiters, .ok) := by rw [State.claim, if_pos hfree]
    have hclaim' := hclaim.claim p wait
    rw [hu] at hclaim'
    exact ⟨_, exec_cla_held hstands hreq hu hclaim' rfl, port_moveClaim s _ _, moveClaim_frame s _ _⟩
  · rintro rfl
    have hu : s.claim h wait = (s, .ok) := by rw [State.claim, if_neg (hholder ▸ nofun), if_pos hholder]
    exact exec_cla_held hstands hreq hu hclaim hholder
  · have hu := claim_of_held (hholder ▸ nofun) (by simpa [hholder] using hne) hkept
    exact exec_cla_held hstands hreq hu hclaim hholder
  · rintro hne hp rfl
    have hheld : s.holder ≠ none := hholder ▸ nofun
    have hother : s.holder ≠ some p := by simpa [hholder] using hne
    have hplace : State.waitPlace { s with waiters := s.waiters ++ [p] } p = s.waiters.length + 1 := by
      simp [State.waitPlace, List.idxOf_append_of_notMem hp]
    rw [exec_cla_held hstands hreq (claim_joins hheld hother hp) (hclaim.joins hheld hother hp) hholder, hplace]
  · refine ⟨_, ?_, port_moveClaim s _ _, moveClaim_frame s _ _⟩
    rw [exec_rel hstands hreq, release_of_holder hholder]
    dsimp only
    rw [holderResult_eq, moveClaim_frame]
    cases s.waiters with
    | nil => rfl
    | cons q rest => rw [List.head?_cons, toNat_portCode_some]
  · rw [exec_rel hstands hreq, release_of_not_holder hholder]
    dsimp only
    rw [holderResult_eq]
    cases s.holder with
    | none => rfl
    | some h => rw [toNat_portCode_some]

/-! ### The steps of a teardown -/

section
variable {s : State} {p : Port}

theorem releaseAtTeardown_of_holder (h : s.holder = some p) :
    s.releaseAtTeardown p = s.moveClaim s.waiters.head? s.waiters.tail := by
  rw [State.releaseAtTeardown, if_pos h, passClaim_eq]

theorem exec_teardownCu (h : (s.port p).session = .teardown .claim) :
    exec (.teardownCu p) s =
      .next (((s.releaseAtTeardown p).updatePort p fun pi => { pi with session := .teardown .notify }).toNotify
        (.teardown p)) := by
  rw [exec, execTeardownCu, if_pos h]

theorem subscriptions_cleared (subs : Vector (Vector Subscription 512) 4) (p q : Port) (e : EntryId) :
    (subs.set p (Vector.replicate 512 Subscription.absent))[q][e] = if q = p then Subscription.absent else subs[q][e] := by
  by_cases hq : q = p
  · simp [hq]
  · have hne : p.val ≠ q.val := fun hval => hq (Fin.ext hval.symm)
    simp [hq, hne]

theorem exec_teardownNu {rest : List NuItem} (hinput : s.nuInput = .teardown p :: rest)
    (h : (s.port p).session = .teardown .notify) :
    exec (.teardownNu p) s =
      .next ((State.setRing { s with
        nuInput := rest
        subs := s.subs.set p (Vector.replicate 512 Subscription.absent) } p Ring.cleared).updatePort p
          fun pi => { pi with session := .teardown .depart }) := by
  simp only [exec, execTeardownNu, hinput, h, and_self, if_true]

end

/-- Settles O19: a holder's claim passes as by REL, a waiter leaves, and the Notification Unit clears what it holds of the
port. -/
theorem teardownReleasesTheClaimAndClearsTheRing : Obligations.TeardownReleasesTheClaimAndClearsTheRing := by
  refine ⟨fun s p hsession => ⟨fun hholder => ?_, fun hholder => ?_⟩, fun s p rest hinput hsession => ?_⟩
  · rw [exec_teardownCu hsession, State.releaseAtTeardown, if_neg hholder]
    rfl
  · refine ⟨_, exec_teardownCu hsession, ?_, fun q hne => ?_, ?_⟩
    · rw [State.toNotify_port, State.port_updatePort, if_pos rfl, releaseAtTeardown_of_holder hholder, port_moveClaim]
    · rw [State.toNotify_port, State.port_updatePort, if_neg hne.symm, releaseAtTeardown_of_holder hholder, port_moveClaim]
    · rw [releaseAtTeardown_of_holder hholder, moveClaim_frame]
      simp [State.toNotify, State.updatePort, State.setPort]
  · refine ⟨_, exec_teardownNu hinput hsession, fun q e => ?_, fun q => ?_, fun q => ?_, rfl⟩
    · exact subscriptions_cleared s.subs p q e
    · exact (State.ring_setRing _ p Ring.cleared q).trans (if_congr eq_comm rfl rfl)
    · rw [State.port_updatePort]
      by_cases hq : q = p
      · subst hq
        rw [if_pos rfl, if_pos rfl]
        rfl
      · rw [if_neg (Ne.symm hq), if_neg hq]
        rfl

end Sys2Proof.Machine
end

section
/-! SUPPORT. SC's arbiter: who waits for the store, whom the rotation serves next (R160), and what a row can do to the grant and
to the waiting requests, said once: `exec_arbiterCourse`. -/

namespace Sys2Proof.Machine

/-! ### The rotation -/

/-- The ports in rotating order after port `k`, which comes last. -/
def rotation (k : Port) : List Port := [k + 1, k + 2, k + 3, k]

theorem mem_rotation : ∀ k q : Port, q ∈ rotation k := by decide

theorem rotation_pairwise : ∀ k : Port, (rotation k).Pairwise fun p q => (p - k - 1).val < (q - k - 1).val := by decide

section
variable {s : State} {p : Port}

theorem rotationPlace_injective {q : Port} (h : s.rotationPlace p = s.rotationPlace q) : p = q :=
  sub_left_injective (sub_left_injective (Fin.ext h))

theorem nextInRotation_eq_none : s.nextInRotation = none ↔ ∀ q, (s.port q).waitsForStore = false := by
  refine List.find?_eq_none.trans ⟨fun h q => ?_, fun h q _ => by simp [h q]⟩
  exact eq_false_of_ne_true (h q (mem_rotation s.lastGranted q))

/-- The port that the rotation serves next waits, and no waiting port has a lower place. -/
theorem nextInRotation_least (h : s.nextInRotation = some p) :
    (s.port p).waitsForStore = true ∧ ∀ q, (s.port q).waitsForStore = true → s.rotationPlace p ≤ s.rotationPlace q := by
  obtain ⟨hwaits, before, behind, horder, hbefore⟩ := List.find?_eq_some_iff_append.mp h
  change rotation s.lastGranted = _ at horder
  refine ⟨hwaits, fun q hq => ?_⟩
  have hpairs := horder ▸ rotation_pairwise s.lastGranted
  rcases List.mem_append.mp (horder ▸ mem_rotation s.lastGranted q) with hq' | hq'
  · exact absurd hq (by simpa using hbefore q hq')
  · rcases List.mem_cons.mp hq' with rfl | hq'
    · exact le_rfl
    · exact ((List.pairwise_cons.mp (List.pairwise_append.mp hpairs).2.1).1 q hq').le

theorem nextInRotation_eq_some :
    s.nextInRotation = some p ↔
      (s.port p).waitsForStore = true ∧
        ∀ q, (s.port q).waitsForStore = true → s.rotationPlace p ≤ s.rotationPlace q := by
  refine ⟨nextInRotation_least, fun ⟨hwaits, hleast⟩ => ?_⟩
  cases hnext : s.nextInRotation with
  | none => exact absurd hwaits (by simp [nextInRotation_eq_none.mp hnext p])
  | some r =>
    obtain ⟨hr, hrleast⟩ := nextInRotation_least hnext
    rw [rotationPlace_injective (Nat.le_antisymm (hrleast p hwaits) (hleast r hr))]

end

/-! ### The arbiter's agreement -/

section
variable {s t u : State} {p : Port} {c : Pending}

/-- A look of the arbiter at its requests leaves an idle store only where nobody waits; a grant that stands must still be
waited for (R160). -/
theorem arbiterOk_arbitrate (tick : s.granted = some .tick → s.tickWaiting = true)
    (port : ∀ p, s.granted = some (.port p) → (s.port p).waitsForStore = true ∧ s.lastGranted = p) : s.arbitrate.ArbiterOk := by
  rcases arbitrate_cases s with ⟨hheld, h⟩ | ⟨-, htick, h⟩ | ⟨p, -, -, hnext, h⟩ | ⟨-, htick, hnext, h⟩ <;> rw [h]
  · exact ⟨fun hidle => absurd hidle hheld, tick, port⟩
  · exact ⟨nofun, fun _ => htick, nofun⟩
  · refine ⟨nofun, nofun, fun q hq => ?_⟩
    cases hq
    exact ⟨(nextInRotation_least hnext).1, rfl⟩
  · exact ⟨fun _ => ⟨htick, nextInRotation_eq_none.mp hnext⟩, tick, port⟩

/-! ### Who waits for the store -/

theorem waitsForStore_iff (pi : PortIf) :
    pi.waitsForStore = true ↔ pi.session = .teardown .store ∨ ∃ c, pi.slot = some c ∧ c.stage = .store := by
  unfold PortIf.waitsForStore
  cases pi.slot <;> simp

/-- The arbiter's own fields: the grant, the rotation and the tick's request. -/
def State.arbiter (s : State) : Option Requester × Port × Bool := (s.granted, s.lastGranted, s.tickWaiting)

theorem arbiter_eq_iff (s t : State) :
    t.arbiter = s.arbiter ↔
      t.granted = s.granted ∧ t.lastGranted = s.lastGranted ∧ t.tickWaiting = s.tickWaiting := by
  simp [State.arbiter]

/-- The arbiter and the requests that wait for it stand in `t` as in `s`. -/
structure SameRequests (s t : State) : Prop where
  arbiter : t.arbiter = s.arbiter
  waits : ∀ q, (t.port q).waitsForStore = (s.port q).waitsForStore

/-- The grant stands in `t` as in `s`, and the requests that wait in `s` wait in `t` too; others may have arrived. -/
structure MoreRequests (s t : State) : Prop where
  granted : t.granted = s.granted
  lastGranted : t.lastGranted = s.lastGranted
  tick : s.tickWaiting = true → t.tickWaiting = true
  waits : ∀ q, (s.port q).waitsForStore = true → (t.port q).waitsForStore = true

theorem SameRequests.refl (s : State) : SameRequests s s := ⟨rfl, fun _ => rfl⟩

theorem SameRequests.trans (h : SameRequests s t) (h' : SameRequests t u) : SameRequests s u :=
  ⟨h'.arbiter.trans h.arbiter, fun q => (h'.waits q).trans (h.waits q)⟩

theorem Posted.waitsForStore (h : Posted s t) (q : Port) : (t.port q).waitsForStore = (s.port q).waitsForStore := by
  unfold PortIf.waitsForStore
  rw [h.slot q, h.session q]

theorem Posted.sameRequests (h : Posted s t) (arbiter : t.arbiter = s.arbiter) : SameRequests s t := ⟨arbiter, h.waitsForStore⟩

theorem sameRequests_updatePort {f : PortIf → PortIf}
    (h : (f (s.port p)).waitsForStore = (s.port p).waitsForStore) : SameRequests s (s.updatePort p f) := by
  refine ⟨rfl, fun q => ?_⟩
  rw [State.port_updatePort]
  split
  · rename_i hq
    exact hq ▸ h
  · rfl

theorem SameRequests.more (h : SameRequests s t) : MoreRequests s t := by
  obtain ⟨hgranted, hlast, htick⟩ := (arbiter_eq_iff s t).mp h.arbiter
  exact ⟨hgranted, hlast, htick.trans, fun q => (h.waits q).trans⟩

theorem MoreRequests.trans (h : MoreRequests s t) (h' : MoreRequests t u) : MoreRequests s u where
  granted := h'.granted.trans h.granted
  lastGranted := h'.lastGranted.trans h.lastGranted
  tick := h'.tick ∘ h.tick
  waits q := h'.waits q ∘ h.waits q

theorem moreRequests_updatePort {f : PortIf → PortIf}
    (h : (s.port p).waitsForStore = true → (f (s.port p)).waitsForStore = true) : MoreRequests s (s.updatePort p f) := by
  refine ⟨rfl, rfl, id, fun q => ?_⟩
  rw [State.port_updatePort]
  split
  · rename_i hq
    exact hq ▸ h
  · exact id

/-! ### What leaves the arbiter alone -/

theorem arbiter_of_besidesPool (h : t.besidesPool = s.besidesPool) : t.arbiter = s.arbiter := (congrArg State.arbiter h :)

theorem arbiter_passClaim (s : State) : s.passClaim.arbiter = s.arbiter := by
  unfold State.passClaim
  split <;> rfl

theorem arbiter_claim (s : State) (p : Port) (wait : Bool) : (s.claim p wait).1.arbiter = s.arbiter := by
  unfold State.claim
  split_ifs <;> rfl

theorem arbiter_release (s : State) (p : Port) : (s.release p).1.arbiter = s.arbiter := by
  unfold State.release
  split_ifs
  · exact arbiter_passClaim s
  all_goals rfl

theorem arbiter_releaseAtTeardown (s : State) (p : Port) : (s.releaseAtTeardown p).arbiter = s.arbiter := by
  unfold State.releaseAtTeardown
  split_ifs
  · exact arbiter_passClaim s
  · rfl

theorem arbiter_subscribe (s : State) (p : Port) (kinds : Kinds) (coalesce : Bool) (ans : Answer) :
    (s.subscribe p kinds coalesce ans).1.arbiter = s.arbiter := by
  unfold State.subscribe
  split
  · rfl
  · split <;> rfl

theorem arbiter_replaceGrant (s : State) (target index : Byte) (count localBase globalBase : Half) (rights : Rights) :
    (s.replaceGrant target index count localBase globalBase rights).1.arbiter = s.arbiter := by
  unfold State.replaceGrant
  split <;> rfl

theorem arbiter_readGrant (s : State) (target index : Byte) : (s.readGrant target index).1.arbiter = s.arbiter := by
  unfold State.readGrant
  split <;> rfl

theorem arbiter_writePort (s : State) (p : Port) (f : PortIf → PortIf) : (s.writePort p f).arbiter = s.arbiter := by
  unfold State.writePort
  split <;> rfl

theorem arbiter_writeData (s : State) (p : Port) (a : ApIdx) (w : WordIdx) (v : Word) :
    (s.writeData p a w v).arbiter = s.arbiter := by
  unfold State.writeData
  dsimp only
  split
  · rfl
  · split
    · rfl
    · split
      · rfl
      · rfl
      all_goals split <;> rfl

theorem sameRequests_withInput (s : State) (l : List NuItem) : SameRequests s { s with nuInput := l } := ⟨rfl, fun _ => rfl⟩

theorem sameRequests_setRing (s : State) (p : Port) (r : Ring) : SameRequests s (s.setRing p r) := ⟨rfl, fun _ => rfl⟩

theorem sameRequests_setLatch (s : State) (p : Port) (b : BitVec 7) : SameRequests s (s.updatePort p (·.setLatch b)) :=
  sameRequests_updatePort rfl

theorem sameRequests_appendRecord (s : State) (p : Port) (x : Record) : SameRequests s (s.appendRecord p x) := by
  rcases appendRecord_cases s p x with ⟨-, h⟩ | ⟨-, h⟩ <;> rw [h]
  · exact (sameRequests_setRing s p _).trans (sameRequests_setLatch _ p _)
  · exact (sameRequests_setRing s p _).trans (sameRequests_updatePort (f := PortIf.raiseOverflow) rfl)

theorem sameRequests_routeEntry (s : State) (r : EntryReport) (p : Port) : SameRequests s (s.routeEntry r p) := by
  unfold State.routeEntry State.deliver
  split
  · split
    · dsimp only
      split
      · exact (sameRequests_setRing s p _).trans (sameRequests_setLatch _ p _)
      · exact sameRequests_appendRecord s p _
    · exact .refl s
  · exact .refl s

theorem sameRequests_routePort (s : State) (r : PortReport) (p : Port) : SameRequests s (s.routePort r p) := by
  unfold State.routePort
  split
  · exact sameRequests_appendRecord s p _
  · exact .refl s

theorem SameRequests.foldl {α : Type} {f : State → α → State} (hf : ∀ u a, SameRequests u (f u a)) (l : List α)
    (h : SameRequests s t) : SameRequests s (l.foldl f t) :=
  List.foldlRecOn l f h fun u hu a _ => hu.trans (hf u a)

/-! ### Changes of one Port Interface -/

/-- A READY slot asks nothing of the store; a teardown at the arbiter does (R153, R160). -/
theorem waitsForStore_of_ready {pi : PortIf} (h : pi.slot = none) :
    pi.waitsForStore = decide (pi.session = .teardown .store) := by
  simp [PortIf.waitsForStore, h]

theorem waitsForStore_of_slot {pi : PortIf} (h : pi.slot = some c) :
    pi.waitsForStore = (decide (pi.session = .teardown .store) || decide (c.stage = .store)) := by
  simp [PortIf.waitsForStore, h]

/-- With a slot as before, only the step of the teardown counts. -/
theorem waitsForStore_congr {pi pi' : PortIf} (hslot : pi'.slot = pi.slot)
    (hsession : pi'.session = .teardown .store ↔ pi.session = .teardown .store) : pi'.waitsForStore = pi.waitsForStore := by
  simp [PortIf.waitsForStore, hslot, hsession]

/-- A completion of a command that stands elsewhere takes no request from the arbiter, and a discarded one brings the teardown's
(R153, R157). -/
theorem waitsForStore_complete {pi : PortIf} (hslot : pi.slot = some c) (hstage : c.stage ≠ .store) (st : Status) (rw : Results)
    (hwaits : pi.waitsForStore = true) :
    (if pi.session = .teardown .await then pi.discardCompletion else pi.complete st rw).waitsForStore = true := by
  have hsession : pi.session = .teardown .store := by simpa [waitsForStore_of_slot hslot, hstage] using hwaits
  rw [if_neg (by simp [hsession]), waitsForStore_of_ready rfl]
  exact decide_eq_true hsession

theorem waitsForStore_presenceRises (pi : PortIf) : pi.presenceRises.waitsForStore = pi.waitsForStore := by
  unfold PortIf.presenceRises
  split
  · rename_i hsession
    exact waitsForStore_congr rfl (by simp [hsession])
  all_goals rfl

/-- A loss of presence brings the teardown's request at most (R150, R153). -/
theorem PortIf.Ok.waitsForStore_presenceFalls {pi : PortIf} (h : pi.Ok) (hwaits : pi.waitsForStore = true) :
    pi.presenceFalls.waitsForStore = true := by
  unfold PortIf.presenceFalls
  split
  · exact hwaits
  · rename_i hsession
    obtain ⟨-, hslot⟩ := h.of_unattached hsession
    rcases (waitsForStore_iff pi).mp hwaits with hteardown | ⟨c, hc, hstage⟩
    · exact nomatch hsession.symm.trans hteardown
    · exact nomatch (hslot c hc).2.symm.trans hstage
  · rename_i hsession
    rcases (waitsForStore_iff pi).mp hwaits with hteardown | ⟨c, hc, hstage⟩
    · exact nomatch hsession.symm.trans hteardown
    · exact (waitsForStore_iff _).mpr (.inr ⟨c, hc, hstage⟩)
  · exact hwaits

/-- Outside ATTACHED a loss of presence neither brings nor takes a request. -/
theorem PortIf.Ok.waitsForStore_presenceFalls_of_not_attached {pi : PortIf} (h : pi.Ok) (hsession : pi.session ≠ .attached) :
    pi.presenceFalls.waitsForStore = pi.waitsForStore := by
  refine Bool.eq_iff_iff.mpr ⟨fun hfallen => ?_, h.waitsForStore_presenceFalls⟩
  unfold PortIf.presenceFalls at hfallen
  split at hfallen
  · exact hfallen
  · cases hfallen
  · rename_i hattached
    exact absurd hattached hsession
  · exact hfallen

/-- Past the Store Controller's step a teardown does not wait for the store, nor does the DET in its slot (R152, R153). -/
theorem PortIf.Ok.not_waitsForStore {pi : PortIf} (h : pi.Ok) {k : TeardownStep} (hsession : pi.session = .teardown k)
    (hawait : k ≠ .await) (hstore : k ≠ .store) : pi.waitsForStore = false := by
  refine eq_false_of_ne_true fun hwaits => ?_
  rcases (waitsForStore_iff pi).mp hwaits with hteardown | ⟨c, hc, hstage⟩
  · exact hstore (Session.teardown.inj (hsession.symm.trans hteardown))
  · exact nomatch ((h.of_teardown hawait hsession) c hc).2.symm.trans hstage

theorem waitsForStore_endTeardown (pi : PortIf) : pi.endTeardown.waitsForStore = false := by
  unfold PortIf.endTeardown
  split
  · dsimp only
    split
    · exact waitsForStore_of_ready rfl
    · rename_i hready
      exact waitsForStore_of_ready (by simpa using hready)
  · rfl

/-! ### What a row can do -/

/-- What a row can make of the arbiter and its requests. -/
inductive ArbiterCourse (s : State) : State → Prop
  /-- Nothing. -/
  | rests {t : State} (same : SameRequests s t) : ArbiterCourse s t
  /-- Requests arrive, if any, and the arbiter looks at all of them. -/
  | looks {u : State} (more : MoreRequests s u) : ArbiterCourse s u.arbitrate
  /-- A store event ends, and the arbiter looks at its requests. -/
  | frees {u : State} (free : u.granted = none) : ArbiterCourse s u.arbitrate
  /-- DEVICE_RESET (R166). -/
  | resets : ArbiterCourse s (.resetWith (s.ports.map fun pi => PortIf.afterReset pi.presence) s.pending)

theorem ArbiterCourse.idle : ArbiterCourse s s := .rests (.refl s)

theorem ArbiterCourse.of_posted (h : Posted s t) (arbiter : t.arbiter = s.arbiter) : ArbiterCourse s t :=
  .rests (h.sameRequests arbiter)

/-- A command that stands elsewhere has been carried out by its owning block on the way from `s` to `u`, and completes. -/
theorem SameRequests.completes (h : SameRequests s u) (hslot : (u.port p).slot = some c) (hstage : c.stage ≠ .store)
    (st : Status) (rw : Results) : ArbiterCourse s (u.complete p st rw) :=
  .looks (h.more.trans (moreRequests_updatePort (waitsForStore_complete hslot hstage st rw)))

theorem ArbiterCourse.of_commandAt {k : Stage} (hcommand : s.commandAt p k = some c) (hk : k ≠ .store) {r : Answered}
    (posted : Posted s r.1) (arbiter : r.1.arbiter = s.arbiter) : ArbiterCourse s (r.1.complete p r.2.1 r.2.2) := by
  obtain ⟨hslot, hstage⟩ := (commandAt_eq_some s p k c).mp hcommand
  exact (posted.sameRequests arbiter).completes ((posted.slot p).trans hslot) (hstage ▸ hk) _ _

/-! #### Host writes -/

/-- A command that takes a READY slot may bring a request (R156, R160). -/
theorem SameRequests.takeSlot (h : SameRequests s t) (hready : (t.port p).slot = none) (req : Request) :
    ArbiterCourse s (t.takeSlot p req) := by
  have hmore : ∀ d : Pending, MoreRequests s (t.updatePort p fun pi => { pi with slot := some d }) := fun d =>
    h.more.trans (moreRequests_updatePort fun hwaits => (waitsForStore_iff _).mpr (.inl (by
      simpa [waitsForStore_of_ready hready] using hwaits)))
  unfold State.takeSlot
  dsimp only
  split
  · exact .looks ((hmore _).trans (SameRequests.more ⟨rfl, fun _ => rfl⟩))
  · exact .looks (hmore _)

theorem SameRequests.completeNow (h : SameRequests s t) (hready : (t.port p).slot = none) (st : Status) :
    ArbiterCourse s (t.completeNow p st) :=
  .rests (h.trans (sameRequests_updatePort (waitsForStore_congr hready.symm Iff.rfl)))

theorem SameRequests.arrive (h : SameRequests s t) (hready : (t.port p).slot = none) (req : Request) :
    ArbiterCourse s (t.arrive p req) := by
  unfold State.arrive
  split
  · exact .rests h
  · split
    · have hdropped := h.trans (sameRequests_updatePort (s := t) (p := p) (f := PortIf.dropNotices) rfl)
      exact hdropped.takeSlot (by rw [State.port_updatePort, if_pos rfl]; exact hready) req
    · exact h.completeNow hready _
  · exact h.completeNow hready _
  · split
    · exact h.completeNow hready _
    · exact h.takeSlot hready req

theorem arbiterCourse_writeCommand (s : State) (p : Port) (v : Word) : ArbiterCourse s (s.writeCommand p v) := by
  have hkept : SameRequests s (s.updatePort p fun pi => { pi with cmdWord := v }) := sameRequests_updatePort rfl
  unfold State.writeCommand
  dsimp only
  split
  · exact .idle
  · split
    · exact .rests (hkept.trans (sameRequests_updatePort (f := (·.latchFault .commandOverrun none)) rfl))
    · rename_i hready
      exact hkept.arrive (by rw [State.port_updatePort, if_pos rfl]; exact hready) _

theorem arbiterCourse_takeRecord (s : State) (p : Port) : ArbiterCourse s (s.takeRecord p) := by
  unfold State.takeRecord
  split
  · exact .idle
  · exact .rests (sameRequests_setRing s p _)

theorem arbiterCourse_writePort (s : State) (p : Port) {f : PortIf → PortIf} (hslot : ∀ pi, (f pi).slot = pi.slot)
    (hsession : ∀ pi, (f pi).session = pi.session) : ArbiterCourse s (s.writePort p f) :=
  .of_posted (posted_writePort s p hslot hsession) (arbiter_writePort s p f)

theorem arbiterCourse_writeData (s : State) (p : Port) (a : ApIdx) (w : WordIdx) (v : Word) :
    ArbiterCourse s (s.writeData p a w v) :=
  .of_posted (posted_writeData s p a w v) (arbiter_writeData s p a w v)

theorem arbiterCourse_writeWindowWord (s : State) (p : Port) (x : WindowWord) (v : Word) :
    ArbiterCourse s (s.writeWindowWord p x v) := by
  cases x with
  | command => exact arbiterCourse_writeCommand s p v
  | take => exact arbiterCourse_takeRecord s p
  | apData a w => exact arbiterCourse_writeData s p a w v
  | param _ | latch | mask | force => exact arbiterCourse_writePort s p (fun _ => rfl) fun _ => rfl
  | _ => exact .idle

/-! #### The rows -/

theorem execSub_arbiterCourse (h : execSub p s = .next t) : ArbiterCourse s t := by
  unfold execSub at h
  split at h
  · rename_i hcommand
    obtain ⟨hslot, hstage⟩ := (commandAt_eq_some s p .notify _).mp hcommand
    split at h <;> cases h
    · apply SameRequests.completes
      · exact (sameRequests_withInput s _).trans ((posted_subscribe ..).sameRequests (arbiter_subscribe ..))
      · exact ((posted_subscribe ..).slot p).trans hslot
      · exact hstage ▸ nofun
    · exact .idle
  · cases h; exact .idle

theorem execMrk_arbiterCourse (h : execMrk p s = .next t) : ArbiterCourse s t := by
  unfold execMrk at h
  split at h
  · rename_i hcommand
    obtain ⟨hslot, hstage⟩ := (commandAt_eq_some s p .notify _).mp hcommand
    split at h <;> cases h
    · apply SameRequests.completes
      · exact (sameRequests_withInput s _).trans (sameRequests_appendRecord _ p _)
      · exact (slot_appendRecord _ p _ p).trans hslot
      · exact hstage ▸ nofun
    · exact .idle
  · cases h; exact .idle

theorem execAtt_arbiterCourse (h : execAtt p s = .next t) : ArbiterCourse s t := by
  unfold execAtt at h
  split at h <;> cases h
  · rename_i hcommand
    split
    · rename_i hsession
      have hattached : SameRequests s (s.updatePort p fun pi => { pi with session := .attached }) :=
        sameRequests_updatePort (waitsForStore_congr rfl (by simp [hsession]))
      exact .rests (hattached.trans
        (((posted_toNotify _ rfl).trans (posted_handPeerNotice _ p)).sameRequests rfl))
    · exact .of_commandAt (r := (s, _, _)) hcommand nofun (.refl s) rfl
  · exact .idle

theorem execDet_arbiterCourse (h : execDet p s = .next t) : ArbiterCourse s t := by
  unfold execDet at h
  split at h
  · rename_i hcommand
    split at h <;> cases h
    · exact .looks (moreRequests_updatePort fun _ => (waitsForStore_iff _).mpr (.inl rfl))
    · exact .of_commandAt (r := (s, _, _)) hcommand nofun (.refl s) rfl
  · cases h; exact .idle

theorem execCommandTranslation_arbiterCourse (h : execCommandTranslation p s = .next t) : ArbiterCourse s t := by
  cases hcommand : s.commandAt p .translate with
  | none => simp only [execCommandTranslation, hcommand] at h; cases h; exact .idle
  | some c =>
    have hstands := (commandAt_eq_some s p .translate c).mp hcommand
    obtain rfl := Host.Outcome.next.inj (h.symm.trans (exec_commandTranslation hstands))
    obtain ⟨hslot, hstage⟩ := hstands
    have hmoved : MoreRequests s (s.updatePort p fun pi => { pi with slot := some (c.translated s.grants[p]) }) :=
      moreRequests_updatePort fun hwaits => (waitsForStore_iff _).mpr (.inl (by
        simpa [waitsForStore_of_slot hslot, hstage] using hwaits))
    exact .looks (hmoved.trans (SameRequests.more ⟨rfl, fun _ => rfl⟩))

/-- A teardown past the Store Controller's step goes on without a request (R154). -/
theorem sameRequests_advance {k k' : TeardownStep} (hsession : (s.port p).session = .teardown k) (hstore : k ≠ .store)
    (hstore' : k' ≠ .store) :
    SameRequests s (s.updatePort p fun pi => { pi with session := .teardown k' }) :=
  sameRequests_updatePort (waitsForStore_congr rfl (by simp [hsession, hstore, hstore']))

theorem execTeardown_arbiterCourse
    (h : execTeardownSc p s = .next t ∨ execTeardownCu p s = .next t ∨ execTeardownNu p s = .next t) : ArbiterCourse s t := by
  rcases h with h | h | h
  · unfold execTeardownSc at h
    split at h <;> cases h
    · exact .frees (by rw [endStoreEvent_frame]; rfl)
    · exact .idle
  · unfold execTeardownCu at h
    split at h <;> cases h
    · rename_i hsession
      have hreleased : SameRequests s (s.releaseAtTeardown p) :=
        (posted_releaseAtTeardown s p).sameRequests (arbiter_releaseAtTeardown s p)
      have hsession' := ((posted_releaseAtTeardown s p).session p).trans hsession
      exact .rests ((hreleased.trans (sameRequests_advance hsession' nofun (k' := .notify) nofun)).trans
        (sameRequests_withInput _ _))
    · exact .idle
  · unfold execTeardownNu at h
    split at h
    · split at h <;> cases h
      · rename_i hturn
        obtain ⟨-, hsession⟩ := hturn
        exact .rests ((sameRequests_advance hsession nofun (k' := .depart) nofun).trans ⟨rfl, fun _ => rfl⟩)
      · exact .idle
    · cases h; exact .idle

theorem execDeparture_arbiterCourse (hports : s.PortsOk) (h : execDeparture p s = .next t) : ArbiterCourse s t := by
  unfold execDeparture at h
  split at h <;> cases h
  · rename_i hsession
    have hposted := (posted_toNotify s (x := .port (.detached p s.timeBase)) rfl).trans (posted_handPeerNotice _ p)
    have hbefore := (hposted.waitsForStore p).trans ((hports p).1.not_waitsForStore hsession nofun nofun)
    exact .rests ((hposted.sameRequests rfl).trans (sameRequests_updatePort ((waitsForStore_endTeardown _).trans hbefore.symm)))
  · exact .idle

theorem execPresenceDeasserted_arbiterCourse (hports : s.PortsOk) (h : execPresenceDeasserted p s = .next t) :
    ArbiterCourse s t := by
  cases h
  split
  · exact .looks (moreRequests_updatePort (hports p).1.waitsForStore_presenceFalls)
  · rename_i hsession
    exact .rests (sameRequests_updatePort ((hports p).1.waitsForStore_presenceFalls_of_not_attached hsession))

theorem arbiterCourse_expireMillisecond (h : SameRequests s t) : ArbiterCourse s t.expireMillisecond :=
  .looks (h.more.trans ⟨rfl, rfl, fun _ => rfl, fun _ => id⟩)

theorem arbiterCourse_microsecond (s : State) : ArbiterCourse s s.microsecond := by
  unfold State.microsecond
  dsimp only
  split
  · exact arbiterCourse_expireMillisecond ⟨rfl, fun _ => rfl⟩
  · exact .rests ⟨rfl, fun _ => rfl⟩

theorem free_endStoreEvent (s u : State) : (s.endStoreEvent u).granted = none := by rw [endStoreEvent_frame]

/-- The tick's store event has run to its end, before the arbiter looks at its requests (R95, R96). -/
def State.tickTaken (s : State) : State :=
  s.running.foldl (State.visitEntry s.owed) { s with owed := 0, tickWaiting := false, granted := none }

theorem takeTick_eq (s : State) : s.takeTick = s.tickTaken.arbitrate := rfl

theorem tickTaken_frame (s : State) :
    s.tickTaken = { s with
      owed := 0
      tickWaiting := false
      granted := none
      catalog := s.tickTaken.catalog
      apertures := s.tickTaken.apertures
      nuInput := s.tickTaken.nuInput } := by
  unfold State.tickTaken
  rw [visits_frame]

/-- Every row takes one of these courses. -/
theorem exec_arbiterCourse {i : Instr} (hports : s.PortsOk) (h : exec i s = .next t) : ArbiterCourse s t := by
  cases i with
  | nop p | badCommand p | rtm p =>
    simp only [exec, execNop, execBadCommand, execRtm] at h
    split at h <;> cases h
    · rename_i hcommand
      exact .of_commandAt (r := (s, _, _)) hcommand nofun (.refl s) rfl
    · exact .idle
  | sgr p =>
    simp only [exec, execSgr] at h
    split at h <;> cases h
    · rename_i hcommand
      exact .of_commandAt hcommand nofun (posted_replaceGrant ..) (arbiter_replaceGrant ..)
    · exact .idle
  | rgr p =>
    simp only [exec, execRgr] at h
    split at h <;> cases h
    · rename_i hcommand
      exact .of_commandAt hcommand nofun (posted_readGrant ..) (arbiter_readGrant ..)
    · exact .idle
  | cla p =>
    simp only [exec, execCla] at h
    split at h <;> cases h
    · rename_i hcommand
      exact .of_commandAt (r := (_, _, _)) hcommand nofun (posted_claim s p _) (arbiter_claim s p _)
    · exact .idle
  | rel p =>
    simp only [exec, execRel] at h
    split at h <;> cases h
    · rename_i hcommand
      exact .of_commandAt (r := (_, _, _)) hcommand nofun (posted_release s p) (arbiter_release s p)
    · exact .idle
  | ord p | ref p | owr p | pub p | cls p | ins p | pst p | define p | wdr p | sfr p | spt p =>
    simp only [exec, execOrd, execRef, execOwr, execPub, execCls, execIns, execPst, execDefine, execWdr, execSfr, execSpt] at h
    split at h <;> cases h
    · exact .frees (free_endStoreEvent s _)
    · exact .idle
  | sub p => exact execSub_arbiterCourse h
  | mrk p => exact execMrk_arbiterCourse h
  | entryReport =>
    simp only [exec, execEntryReport] at h
    split at h <;> cases h
    · exact .rests (SameRequests.foldl (fun u q => sameRequests_routeEntry u _ q) allPorts ⟨rfl, fun _ => rfl⟩)
    · exact .idle
  | portReport =>
    simp only [exec, execPortReport] at h
    split at h <;> cases h
    · exact .rests (SameRequests.foldl (fun u q => sameRequests_routePort u _ q) allPorts ⟨rfl, fun _ => rfl⟩)
    · exact .idle
  | att p => exact execAtt_arbiterCourse h
  | det p => exact execDet_arbiterCourse h
  | commandTranslation p => exact execCommandTranslation_arbiterCourse h
  | teardownSc p => exact execTeardown_arbiterCourse (.inl h)
  | teardownCu p => exact execTeardown_arbiterCourse (.inr (.inl h))
  | teardownNu p => exact execTeardown_arbiterCourse (.inr (.inr h))
  | departure p => exact execDeparture_arbiterCourse hports h
  | presenceAsserted p => cases h; exact .rests (sameRequests_updatePort (waitsForStore_presenceRises _))
  | presenceDeasserted p => exact execPresenceDeasserted_arbiterCourse hports h
  | deviceReset =>
    obtain rfl := Host.Outcome.next.inj ((exec_deviceReset s).symm.trans h)
    exact .resets
  | overflowClear p =>
    simp only [exec, execOverflowClear] at h
    split at h <;> cases h
    · exact .idle
    · exact .rests ((sameRequests_setRing s p _).trans (sameRequests_updatePort (f := PortIf.overflowCleared) rfl))
  | commandArrival p v | commandOverrun p v => cases h; exact arbiterCourse_writeCommand s p v
  | take p v => cases h; exact arbiterCourse_takeRecord s p
  | dataWordWrite p a w v => cases h; exact arbiterCourse_writeData s p a w v
  | windowWrite p offset v => cases h; exact arbiterCourse_writeWindowWord s p _ v
  | latchWord p v | maskWord p v | forceWord p v => cases h; exact arbiterCourse_writePort s p (fun _ => rfl) fun _ => rfl
  | peerNotice p | claimMove p =>
    simp only [exec, execPeerNotice, execClaimMove] at h
    split at h <;> cases h
    · exact .of_posted (posted_updatePort s p (slot_noticed _ _) (session_noticed _ _)) rfl
    · exact .idle
  | crossing p =>
    simp only [exec, execCrossing] at h
    split at h <;> cases h
    · exact .idle
    · exact .of_posted (posted_updatePort s p (slot_noticed _ _) (session_noticed _ _)) rfl
  | millisecondExpiry => cases h; exact arbiterCourse_expireMillisecond ⟨rfl, fun _ => rfl⟩
  | tick | staleTransition | emptyExpiry =>
    simp only [exec, execTick, execStaleTransition, execEmptyExpiry] at h
    split at h <;> injection h with h <;> subst h
    · exact .frees (u := s.tickTaken) (by rw [tickTaken_frame])
    · exact .idle

end

end Sys2Proof.Machine
end

section
/-! PROOF. The command word's write: arrivals that take the slot (O9) or are refused (O10), and overruns (O11). The other words
that the host writes: the latch, mask, force and take words (O28), and the dead window of OFFLINE (O23). -/

namespace Sys2Proof.Machine

/-! ### A write of the command word -/

section
variable {s : State} {p : Port} {v : Word} {req : Request} {pi : PortIf}

/-- A write that meets a READY slot is kept for read-back, and is then an arrival (R156, R168). -/
theorem writeCommand_of_ready (hready : (s.port p).slot = none) (hon : (s.port p).session ≠ .offline) :
    s.writeCommand p v =
      (s.setPort p { s.port p with cmdWord := v }).arrive p (decodeRequest v (s.port p).params) := by
  simp only [State.writeCommand, if_neg hon, hready]

/-- A write that meets a PENDING slot is an overrun (R158). -/
theorem writeCommand_of_pending {c : Pending} (hslot : (s.port p).slot = some c) (hon : (s.port p).session ≠ .offline) :
    s.writeCommand p v =
      (s.setPort p { s.port p with cmdWord := v }).updatePort p (·.latchFault .commandOverrun none) := by
  simp only [State.writeCommand, if_neg hon, hslot]

theorem writeCommand_of_offline (h : (s.port p).session = .offline) : s.writeCommand p v = s := if_pos h

/-- A Port Interface replaced twice holds the second. -/
theorem setPort_setPort (s : State) (p : Port) (x y : PortIf) : (s.setPort p x).setPort p y = s.setPort p y := by
  simp [State.setPort]

/-- A Port Interface replaced and then changed. -/
theorem updatePort_setPort (s : State) (p : Port) (x : PortIf) (f : PortIf → PortIf) :
    (s.setPort p x).updatePort p f = s.setPort p (f x) := by
  rw [State.updatePort, State.port_setPort, if_pos rfl, setPort_setPort]

theorem port_setPort_self (s : State) (p : Port) (x : PortIf) : (s.setPort p x).port p = x := by
  rw [State.port_setPort, if_pos rfl]

/-- A request as it stands in the slot that it takes: at the first place of its path, with the numbers that go to the Access
Checker (R70, R110, R157). -/
def Request.pending (aps : Vector Aperture 8) (req : Request) : Pending :=
  { req := req, stage := req.firstStage, locals := req.localsFor aps, answers := noAnswers }

/-- What a request of port `p` puts in the Notification Unit's input order at its arrival: an MRK itself, any other nothing
(R135). -/
def markItems (p : Port) (req : Request) : List NuItem := if req = .mrk then [.mark p] else []

/-- The state in which a request of port `p`, otherwise `pi`, has taken the slot, before the arbiter looks at its requests. -/
def State.slotTaken (s : State) (p : Port) (pi : PortIf) (req : Request) : State :=
  { s.setPort p { pi with slot := some (Request.pending s.apertures[p] req) } with nuInput := s.nuInput ++ markItems p req }

theorem takeSlot_setPort (s : State) (p : Port) (pi : PortIf) (req : Request) :
    (s.setPort p pi).takeSlot p req = (s.slotTaken p pi req).arbitrate := by
  unfold State.takeSlot
  dsimp only
  rw [updatePort_setPort]
  unfold State.slotTaken markItems
  split
  · rfl
  · rw [List.append_nil]
    rfl

/-- An arrival that the Port Interface refuses completes at once (R144, R156). -/
theorem completeNow_setPort (s : State) (p : Port) (pi : PortIf) (st : Status) :
    (s.setPort p pi).completeNow p st = s.setPort p (pi.complete st noResults) :=
  updatePort_setPort s p pi _

/-! #### Arrivals by session -/

theorem exec_commandArrival (s : State) (p : Port) (v : Word) : exec (.commandArrival p v) s = .next (s.writeCommand p v) := rfl

theorem isConfiguration_refused_iff :
    (req.isConfiguration && !decide (s.holder = some p)) = true ↔ req.isConfiguration = true ∧ s.holder ≠ some p := by
  simp

/-- In ATTACHED a request takes the slot, a configuration command that of the holder only (R144, R156). -/
theorem arrive_attached (hsession : pi.session = .attached) (hclaim : req.isConfiguration = true → s.holder = some p) :
    (s.setPort p pi).arrive p req = (s.slotTaken p pi req).arbitrate := by
  simp only [State.arrive, port_setPort_self, hsession]
  refine (if_neg fun hrefused => ?_).trans (takeSlot_setPort s p pi req)
  obtain ⟨hconfig, hholder⟩ := isConfiguration_refused_iff.mp hrefused
  exact hholder (hclaim hconfig)

/-- In UNATTACHED an ATT takes the slot, and the notices handed before are dropped (R156, log entry 12). -/
theorem arrive_unattached (hsession : pi.session = .unattached) :
    (s.setPort p pi).arrive p .att = (s.slotTaken p pi.dropNotices .att).arbitrate := by
  simp only [State.arrive, port_setPort_self, hsession, if_true, updatePort_setPort, takeSlot_setPort]

/-- The arrivals that the Port Interface refuses, each with its status (R144, R155, R156). -/
theorem arrive_refused {st : Status}
    (h : pi.session = .unattached ∧ req ≠ .att ∧ st = .notAttached ∨
      (∃ k, pi.session = .teardown k) ∧ st = .notAttached ∨
      pi.session = .attached ∧ req.isConfiguration = true ∧ s.holder ≠ some p ∧ st = .noClaim) :
    (s.setPort p pi).arrive p req = s.setPort p (pi.complete st noResults) := by
  refine Eq.trans ?_ (completeNow_setPort s p pi st)
  rcases h with ⟨hsession, hatt, rfl⟩ | ⟨⟨k, hsession⟩, rfl⟩ | ⟨hsession, hconfig, hholder, rfl⟩ <;>
    simp only [State.arrive, port_setPort_self, hsession]
  · exact if_neg hatt
  · exact if_pos (isConfiguration_refused_iff.mpr ⟨hconfig, hholder⟩)

theorem complete_of_ready (h : pi.slot = none) (st : Status) (rw : Results) :
    pi.complete st rw = { pi with status := st, results := rw, latch := pi.latch ||| bitDone } := by
  rw [PortIf.complete, ← h]
  rfl

/-! #### The numbers for the Access Checker -/

theorem getElem_oneLocal (l : LocalNo) (a : ApIdx) : (oneLocal l)[a] = if a = 0 then some l else none := by
  fin_cases a <;> rfl

theorem localNo_eq_binding (x : Aperture) : x.localNo = x.binding.map Binding.localNo := by
  cases x <;> rfl

/-- The numbers by aperture position (R51, R70, R110). -/
theorem getElem_localsFor (s : State) (p : Port) (req : Request) (a : ApIdx) :
    (req.localsFor s.apertures[p])[a] =
      match req with
      | .ord mask l => if mask.getLsbD a then some l[a] else none
      | .pub mask _ _ => if mask.getLsbD a then (s.aperture p a).binding.map Binding.localNo else none
      | .owr l _ _ => if a = 0 then some l else none
      | .ins l => if a = 0 then some l else none
      | .sub l _ _ => if a = 0 then some l else none
      | _ => none := by
  cases req with
  | ord mask l => exact Vector.getElem_ofFn ..
  | pub mask conditional retain => exact (Vector.getElem_ofFn ..).trans (by rw [localNo_eq_binding]; rfl)
  | owr l | ins l | sub l => exact getElem_oneLocal l a
  | _ => exact Vector.getElem_replicate ..

theorem ports_arbitrate (s : State) : s.arbitrate.ports = s.ports := by rw [arbitrate_frame]

theorem port_slotTaken (s : State) (p : Port) (pi : PortIf) (req : Request) (q : Port) :
    (s.slotTaken p pi req).port q =
      if p = q then { pi with slot := some (Request.pending s.apertures[p] req) } else s.port q :=
  State.port_setPort s p _ q

/-- An arrival that takes the slot changes its port and the input order, and the arbiter then looks at its requests. -/
theorem slotTaken_frame (s : State) (p : Port) (pi : PortIf) (req : Request) :
    (s.slotTaken p pi req).arbitrate = State.arbitrate { s with
      ports := (s.slotTaken p pi req).arbitrate.ports
      nuInput := s.nuInput ++ (if req = .mrk then [.mark p] else []) } := by
  rw [ports_arbitrate]
  rfl

end

/-- Settles O9: in both sessions the request takes the slot as `Request.pending`. -/
theorem arrivalTakesTheSlot : Obligations.ArrivalTakesTheSlot := by
  intro s p v req hready hreq hadmitted
  obtain ⟨pi, hwrite, hattached, hunattached⟩ : ∃ pi : PortIf, s.writeCommand p v = (s.slotTaken p pi req).arbitrate ∧
      ((s.port p).session = .attached → pi = { s.port p with cmdWord := v }) ∧
      ((s.port p).session = .unattached → pi = { s.port p with cmdWord := v, notices := [], crossings := 0 }) := by
    rcases hadmitted with ⟨hsession, hclaim⟩ | ⟨hsession, rfl⟩ <;>
      rw [writeCommand_of_ready hready (hsession ▸ nofun), hreq]
    · exact ⟨_, arrive_attached hsession hclaim, fun _ => rfl, fun hother => nomatch hsession.symm.trans hother⟩
    · exact ⟨_, arrive_unattached hsession, fun hother => (nomatch hsession.symm.trans hother), fun _ => rfl⟩
  have htaken := port_slotTaken s p pi req
  refine ⟨_, Request.pending s.apertures[p] req, (exec_commandArrival s p v).trans (congrArg _ hwrite), rfl, ?_, rfl,
    getElem_localsFor s p req, fun h => ?_, fun h => ?_, fun q hne => ?_, slotTaken_frame s p pi req⟩
  · cases req <;> rfl
  · rw [port_arbitrate, htaken, if_pos rfl, hattached h]
  · rw [port_arbitrate, htaken, if_pos rfl, hunattached h]
  · rw [port_arbitrate, htaken, if_neg hne.symm]

/-- Settles O10: the write in OFFLINE and the refusals of `State.arrive`. -/
theorem arrivalRefusedAtThePort : Obligations.ArrivalRefusedAtThePort := by
  intro s p v req hready hreq
  refine ⟨fun hoffline => ?_, fun st hrefused => ?_⟩
  · rw [exec_commandArrival, writeCommand_of_offline hoffline]
  · have hon : (s.port p).session ≠ .offline := by
      rcases hrefused with ⟨hsession, -⟩ | ⟨⟨k, hsession⟩, -⟩ | ⟨hsession, -⟩ <;> exact hsession ▸ nofun
    rw [exec_commandArrival, writeCommand_of_ready hready hon, hreq,
      arrive_refused (pi := { s.port p with cmdWord := v }) hrefused, complete_of_ready (by exact hready)]
    rfl

/-- Settles O11: the fault by `latchFault_eq`; the two rows of the command word are one write. -/
theorem overrunLeavesThePendingCommand : Obligations.OverrunLeavesThePendingCommand := by
  refine ⟨fun s p v c hslot hon => ?_, fun _ _ _ => rfl⟩
  change Host.Outcome.next (s.writeCommand p v) = _
  rw [writeCommand_of_pending hslot hon, updatePort_setPort, latchFault_eq]

/-! ### The latch, mask, force and take words -/

section
variable {s : State} {p : Port}

theorem writePort_of_on (hon : (s.port p).session ≠ .offline) (f : PortIf → PortIf) :
    s.writePort p f = s.setPort p (f (s.port p)) := if_neg hon

theorem writePort_of_offline (h : (s.port p).session = .offline) (f : PortIf → PortIf) : s.writePort p f = s := if_pos h

theorem takeRecord_of_offline (h : (s.port p).session = .offline) : s.takeRecord p = s := if_pos h

theorem writeData_of_offline (h : (s.port p).session = .offline) (a : ApIdx) (w : WordIdx) (v : Word) :
    s.writeData p a w v = s := if_pos h

/-- In OFFLINE a write of any word of the window is discarded (R149, R167). -/
theorem writeWindowWord_of_offline (h : (s.port p).session = .offline) (x : WindowWord) (v : Word) :
    s.writeWindowWord p x v = s := by
  cases x with
  | command => exact writeCommand_of_offline h
  | take => exact takeRecord_of_offline h
  | apData a w => exact writeData_of_offline h a w v
  | param _ | latch | mask | force => exact writePort_of_offline h _
  | _ => rfl

/-- The latch, mask and force words take bits 0 to 6 (Table 10-7). -/
theorem latchBits_eq_setWidth (v : Word) : latchBits v = v.setWidth 7 := (BitVec.setWidth_eq_extractLsb' (by decide)).symm

/-- Whether bit `i` is among the bits written (R162). -/
theorem setWidth_and_ne_zero_iff (v : Word) {b : BitVec 7} {i : Nat} (hb : b = BitVec.twoPow 7 i) (hi : i < 7) (h : b ≠ 0) :
    v.setWidth 7 &&& b ≠ 0 ↔ v.getLsbD i = true := by
  subst hb
  rw [BitVec.and_twoPow, BitVec.getLsbD_setWidth]
  by_cases hbit : v.getLsbD i = true <;> simp_all

theorem writes_overflow_iff (v : Word) : v.setWidth 7 &&& bitOverflow ≠ 0 ↔ v.getLsbD 1 = true :=
  setWidth_and_ne_zero_iff v rfl (by decide) (by decide)

theorem writes_fault_iff (v : Word) : v.setWidth 7 &&& bitFault ≠ 0 ↔ v.getLsbD 6 = true :=
  setWidth_and_ne_zero_iff v rfl (by decide) (by decide)

theorem clearLatch_eq (pi : PortIf) (v : Word) :
    pi.clearLatch (v.setWidth 7) = { pi with
      latch := pi.latch &&& ~~~(v.setWidth 7)
      fault := if v.getLsbD 6 then FaultRecord.empty else pi.fault
      overflowClears := if v.getLsbD 1 then pi.overflowClears + 1 else pi.overflowClears
      overflowRaised := pi.overflowRaised && !v.getLsbD 1 } := by
  simp only [PortIf.clearLatch, writes_overflow_iff, writes_fault_iff]
  cases v.getLsbD 1 <;> simp

theorem forceLatch_eq (pi : PortIf) (v : Word) :
    pi.forceLatch (v.setWidth 7) = { pi with
      latch := pi.latch ||| v.setWidth 7
      overflowRaised := pi.overflowRaised && !v.getLsbD 1 } := by
  simp only [PortIf.forceLatch, writes_overflow_iff, Bool.decide_eq_true]
  rfl

/-- The interrupt output outside OFFLINE (R163). -/
theorem interrupt_iff {pi : PortIf} (hon : pi.session ≠ .offline) :
    pi.interrupt = true ↔ ∃ i : Fin 7, pi.latch.getLsbD i = true ∧ pi.mask.getLsbD i = true := by
  have hzero : pi.latch &&& pi.mask = 0 ↔ ∀ i : Fin 7, (pi.latch &&& pi.mask).getLsbD i = false :=
    ⟨fun h i => by rw [h]; exact BitVec.getLsbD_zero,
      fun h => BitVec.eq_of_getLsbD_eq fun i hi => (h ⟨i, hi⟩).trans BitVec.getLsbD_zero.symm⟩
  have hbits : pi.interrupt = true ↔ ¬pi.latch &&& pi.mask = 0 := by simp [PortIf.interrupt, hon]
  rw [hbits, hzero, not_forall]
  simp

end

/-- Settles O28: each write by its effect on the Port Interface, the interrupt bit by bit. -/
theorem latchMaskForceAndTakeWords : Obligations.LatchMaskForceAndTakeWords := by
  refine ⟨fun s p hon => ⟨fun v => ⟨?_, ?_, ?_⟩, interrupt_iff hon⟩, fun s p v hon => ?_⟩
  · rw [exec, execLatchWord, writePort_of_on hon, latchBits_eq_setWidth, clearLatch_eq]
  · rw [exec, execMaskWord, writePort_of_on hon, latchBits_eq_setWidth]
  · rw [exec, execForceWord, writePort_of_on hon, latchBits_eq_setWidth, forceLatch_eq]
  · rw [exec, execTake, State.takeRecord, if_neg hon, List.drop_one]

/-- Settles O23: reads, interrupt and writes all look at the session first. -/
theorem offlineWindowIsDead : Obligations.OfflineWindowIsDead := by
  intro s p hoffline
  refine ⟨fun o => if_pos hoffline, ?_, fun v o a w => ?_⟩
  · simp [State.interrupt, PortIf.interrupt, hoffline]
  · exact ⟨congrArg _ (writeCommand_of_offline hoffline), congrArg _ (writeCommand_of_offline hoffline),
      congrArg _ (writeData_of_offline hoffline a w v), congrArg _ (writePort_of_offline hoffline _),
      congrArg _ (writePort_of_offline hoffline _), congrArg _ (writePort_of_offline hoffline _),
      congrArg _ (takeRecord_of_offline hoffline), congrArg _ (writeWindowWord_of_offline hoffline _ v)⟩

end Sys2Proof.Machine
end

section
/-! PROOF. No command stops the part (O2), and a row with no work waiting changes nothing (O8). -/

namespace Sys2Proof.Machine

/-! ### Every row answers a next state -/

theorem exec_total (i : Instr) (s : State) : ∃ t, exec i s = .next t := by
  cases i with
  | commandArrival p v | commandOverrun p v | dataWordWrite p a w v | latchWord p v | maskWord p v | forceWord p v
  | take p v | windowWrite p o v | presenceAsserted p | presenceDeasserted p | deviceReset | millisecondExpiry =>
    exact ⟨_, rfl⟩
  | nop p | badCommand p | rtm p | att p | cla p | rel p | sgr p | rgr p | commandTranslation p =>
    simp only [exec, execNop, execBadCommand, execRtm, execAtt, execCla, execRel, execSgr, execRgr, execCommandTranslation]
    split <;> exact ⟨_, rfl⟩
  | ord p | ref p | owr p | pub p | cls p | ins p | pst p | define p | wdr p | sfr p | spt p =>
    simp only [exec, execOrd, execRef, execOwr, execPub, execCls, execIns, execPst, execDefine, execWdr, execSfr, execSpt]
    split <;> exact ⟨_, rfl⟩
  | tick | staleTransition | emptyExpiry | teardownSc p | teardownCu p | departure p =>
    simp only [exec, execTick, execStaleTransition, execEmptyExpiry, execTeardownSc, execTeardownCu, execDeparture]
    split <;> exact ⟨_, rfl⟩
  | entryReport | portReport | peerNotice p | claimMove p | crossing p | overflowClear p =>
    simp only [exec, execEntryReport, execPortReport, execPeerNotice, execClaimMove, execCrossing, execOverflowClear]
    split <;> exact ⟨_, rfl⟩
  | det p | sub p | mrk p | teardownNu p =>
    simp only [exec, execDet, execSub, execMrk, execTeardownNu]
    split
    · split <;> exact ⟨_, rfl⟩
    · exact ⟨_, rfl⟩

/-- Settles O2: every row by `exec_total`, and the microsecond on an empty queue. -/
theorem noCommandStopsThePart : Obligations.NoCommandStopsThePart := by
  refine ⟨exec_total, fun s => ?_⟩
  unfold State.stepsOn step
  split
  · exact ⟨_, rfl⟩
  · exact exec_total _ _

/-! ### Rows with no work waiting -/

section
variable {s : State} {p : Port}

/-- The slot of port `p` holds no command of row `i`, or one that does not stand at its owning block: it stands before the Access
Checker's translation, or is a DET whose teardown is under way. -/
def State.NoWork (s : State) (p : Port) (i : Instr) : Prop :=
  ∀ c, (s.port p).slot = some c → Request.row p c.req = i → c.stage = .translate ∨ c.stage = .detach

theorem State.NoWork.row_ne_of_commandAt {i : Instr} (h : s.NoWork p i) {k : Stage} {c : Pending}
    (hcommand : s.commandAt p k = some c) (htranslate : k ≠ .translate) (hdetach : k ≠ .detach) : Request.row p c.req ≠ i := by
  obtain ⟨hslot, rfl⟩ := (commandAt_eq_some s p k c).mp hcommand
  exact fun hrow => (h c hslot hrow).elim htranslate hdetach

theorem State.NoWork.row_ne_of_storeCommand {i : Instr} (h : s.NoWork p i) {c : Pending}
    (hcommand : s.storeCommand p = some c) : Request.row p c.req ≠ i := by
  obtain ⟨-, hslot, hstage⟩ := (storeCommand_eq_some s p c).mp hcommand
  intro hrow
  rcases h c hslot hrow with hother | hother <;> exact nomatch hstage.symm.trans hother

/-- Each row that carries out a command takes one that stands at its owning block, and only one of its own. -/
theorem exec_row_of_noWork (r : Request) (h : s.NoWork p (Request.row p r)) : exec (Request.row p r) s = .next s := by
  cases r with
  | nop | bad code | rtm | att | det | sgr | rgr | cla | rel =>
    simp only [Request.row, exec, execNop, execBadCommand, execRtm, execAtt, execDet, execSgr, execRgr, execCla, execRel]
    split
    · rename_i hcommand
      exact absurd rfl (h.row_ne_of_commandAt hcommand nofun nofun)
    · rfl
  | ord | ref | owr | pub | cls | ins | pst | define | wdr | sfr | spt =>
    simp only [Request.row, exec, execOrd, execRef, execOwr, execPub, execCls, execIns, execPst, execDefine, execWdr, execSfr,
      execSpt]
    split
    · rename_i hcommand
      exact absurd rfl (h.row_ne_of_storeCommand hcommand)
    · rfl
  | sub | mrk =>
    simp only [Request.row, exec, execSub, execMrk]
    split
    · rename_i hcommand
      exact absurd rfl (h.row_ne_of_commandAt (k := .notify) hcommand nofun nofun)
    · rfl

theorem exec_commandTranslation_of_not_translate (h : ∀ c, (s.port p).slot = some c → c.stage ≠ .translate) :
    exec (.commandTranslation p) s = .next s := by
  simp only [exec, execCommandTranslation]
  split
  · rename_i hcommand
    obtain ⟨hslot, hstage⟩ := (commandAt_eq_some s p .translate _).mp hcommand
    exact absurd hstage (h _ hslot)
  · rfl

/-! #### The tick -/

theorem tickExpires_iff (s : State) (k : EntryState) :
    s.tickExpires k = true ↔ ∃ e, s.dueAt e = true ∧ (s.entry e).state = k := by
  simp [State.tickExpires, expiresAt_owed]

/-- A row of an expiry changes nothing where the tick is not granted, or holds no such expiry (log entry 3). -/
theorem not_tickGranted_and_expires {k : EntryState}
    (h : s.granted ≠ some .tick ∨ ∀ e, s.dueAt e = true → (s.entry e).state ≠ k) :
    ¬(s.tickGranted && s.tickExpires k) = true := by
  rw [Bool.and_eq_true, tickExpires_iff]
  rintro ⟨hgranted, e, hdue, hstate⟩
  exact h.elim (fun hnot => hnot (of_decide_eq_true hgranted)) fun hnot => hnot e hdue hstate

theorem exec_tick_of_not_granted (h : s.granted ≠ some .tick) : exec .tick s = .next s :=
  if_neg fun hgranted => h (of_decide_eq_true hgranted)

/-! #### The Notification Unit's rows -/

theorem exec_entryReport_of_other (h : ∀ r rest, s.nuInput ≠ .entry r :: rest) : exec .entryReport s = .next s := by
  change execEntryReport s = _
  unfold execEntryReport
  split
  · exact absurd ‹_› (h _ _)
  · rfl

theorem exec_portReport_of_other (h : ∀ r rest, s.nuInput ≠ .port r :: rest) : exec .portReport s = .next s := by
  change execPortReport s = _
  unfold execPortReport
  split
  · exact absurd ‹_› (h _ _)
  · rfl

theorem exec_sub_of_other (h : ∀ rest, s.nuInput ≠ .sub p :: rest) : exec (.sub p) s = .next s := by
  simp only [exec, execSub]
  split
  · split
    · rename_i hinput _ hq
      exact absurd (hq ▸ hinput) (h _)
    · rfl
  · rfl

theorem exec_mrk_of_other (h : ∀ rest, s.nuInput ≠ .mark p :: rest) : exec (.mrk p) s = .next s := by
  simp only [exec, execMrk]
  split
  · split
    · rename_i hinput _ hq
      exact absurd (hq ▸ hinput) (h _)
    · rfl
  · rfl

theorem exec_teardownNu_of_idle (h : (∀ rest, s.nuInput ≠ .teardown p :: rest) ∨ (s.port p).session ≠ .teardown .notify) :
    exec (.teardownNu p) s = .next s := by
  simp only [exec, execTeardownNu]
  split
  · rename_i hinput
    refine if_neg fun hturn => ?_
    obtain ⟨rfl, hsession⟩ := hturn
    exact h.elim (fun hother => hother _ hinput) fun hother => hother hsession
  · rfl

/-! #### Notices -/

theorem exec_peerNotice_of_other (h : ∀ q rest, (s.port p).notices ≠ .peer q :: rest) : exec (.peerNotice p) s = .next s := by
  change execPeerNotice p s = _
  unfold execPeerNotice
  split
  · exact absurd ‹_› (h _ _)
  · rfl

theorem exec_claimMove_of_other (h : ∀ rest, (s.port p).notices ≠ .claimMove :: rest) : exec (.claimMove p) s = .next s := by
  change execClaimMove p s = _
  unfold execClaimMove
  split
  · exact absurd ‹_› (h _)
  · rfl

end

/-- Settles O8: one lemma for each row's guard. -/
theorem rowsWithoutWaitingWorkChangeNothing : Obligations.RowsWithoutWaitingWorkChangeNothing := by
  intro s p
  exact ⟨fun r h => exec_row_of_noWork r h, exec_commandTranslation_of_not_translate, exec_tick_of_not_granted,
    fun h => if_neg (not_tickGranted_and_expires h), fun h => if_neg (not_tickGranted_and_expires h),
    exec_entryReport_of_other, exec_portReport_of_other, exec_sub_of_other, exec_mrk_of_other,
    fun h => exec_teardownNu_of_idle (.inl h), fun h => if_neg fun hturn => h hturn.2, fun h => if_neg h,
    fun h => exec_teardownNu_of_idle (.inr h), fun h => if_neg h, exec_peerNotice_of_other, exec_claimMove_of_other,
    fun h => if_pos h, fun h => if_pos h⟩

end Sys2Proof.Machine
end

section
/-! PROOF. The Port Interface's own commands: NOP, codes that name no command and RTM (O14), ATT and DET (O15). The presence input
(O16) and the end of a teardown (O20). -/

namespace Sys2Proof.Machine

section
variable {s : State} {p : Port} {c : Pending}

/-! ### The Port Interface's own commands -/

theorem exec_nop (h : s.standsAt p c .atPort) (hreq : c.req = .nop) : exec (.nop p) s = .next (s.complete p .ok noResults) := by
  obtain ⟨req, stage, locals, answers⟩ := c
  subst hreq
  simp only [exec, execNop, (commandAt_eq_some s p .atPort _).mpr h]

theorem exec_badCommand (h : s.standsAt p c .atPort) {code : Byte} (hreq : c.req = .bad code) :
    exec (.badCommand p) s = .next (s.complete p .badCommand noResults) := by
  obtain ⟨req, stage, locals, answers⟩ := c
  subst hreq
  simp only [exec, execBadCommand, (commandAt_eq_some s p .atPort _).mpr h]

theorem exec_rtm (h : s.standsAt p c .atPort) (hreq : c.req = .rtm) :
    exec (.rtm p) s = .next (s.complete p .ok (resultWords [timeLow s.timeBase, timeHigh s.timeBase])) := by
  obtain ⟨req, stage, locals, answers⟩ := c
  subst hreq
  simp only [exec, execRtm, (commandAt_eq_some s p .atPort _).mpr h]

theorem exec_att (h : s.standsAt p c .atPort) (hreq : c.req = .att) :
    exec (.att p) s =
      .next (if (s.port p).session = .unattached then s.attach p else s.complete p .ok noResults) := by
  obtain ⟨req, stage, locals, answers⟩ := c
  subst hreq
  simp only [exec, execAtt, (commandAt_eq_some s p .atPort _).mpr h]

theorem exec_det (h : s.standsAt p c .atPort) (hreq : c.req = .det) :
    exec (.det p) s =
      if (s.port p).session = .attached then
        .next (s.setPort p { s.port p with session := .teardown .store, slot := some { c with stage := .detach } }).arbitrate
      else .next (s.complete p .notAttached noResults) := by
  obtain ⟨req, stage, locals, answers⟩ := c
  subst hreq
  simp only [exec, execDet, (commandAt_eq_some s p .atPort _).mpr h]
  rfl

/-! ### ATT -/

/-- A peer notice joins those that each other port has not yet taken (R151, log entry 17). -/
theorem port_handPeerNotice (s : State) (p q : Port) :
    (s.handPeerNotice p).port q =
      if q = p then s.port q else { s.port q with notices := (s.port q).notices ++ [.peer p] } := by
  rw [State.handPeerNotice, State.port_mapPorts]
  rfl

theorem port_attach (s : State) (p q : Port) :
    (s.attach p).port q =
      if q = p then { s.port p with session := .attached }
      else { s.port q with notices := (s.port q).notices ++ [.peer p] } := by
  rw [State.attach, port_handPeerNotice, State.toNotify_port, State.port_updatePort]
  by_cases hq : q = p
  · subst hq
    simp
  · rw [if_neg hq, if_neg hq, if_neg (Ne.symm hq)]

theorem attach_frame (s : State) (p : Port) :
    s.attach p =
      { s with ports := (s.attach p).ports, nuInput := s.nuInput ++ [.port (.attached p s.timeBase)] } := rfl

theorem exec_presenceDeasserted_of_attached (h : (s.port p).session = .attached) :
    exec (.presenceDeasserted p) s = .next (s.updatePort p PortIf.presenceFalls).arbitrate :=
  congrArg Host.Outcome.next (if_pos h)

theorem exec_presenceDeasserted_of_not_attached (h : (s.port p).session ≠ .attached) :
    exec (.presenceDeasserted p) s = .next (s.updatePort p PortIf.presenceFalls) :=
  congrArg Host.Outcome.next (if_neg h)

/-- Presence lost in ATTACHED: the teardown waits for a command in flight, or asks for the store at once (R150, R153). -/
theorem presenceFalls_of_attached {pi : PortIf} (h : pi.session = .attached) :
    pi.presenceFalls =
      { pi with presence := false, session := if pi.slot = none then .teardown .store else .teardown .await } := by
  simp only [PortIf.presenceFalls, h]
  cases pi.slot <;> rfl

theorem presenceFalls_of_unattached {pi : PortIf} (h : pi.session = .unattached) : pi.presenceFalls = pi.goOffline := by
  simp only [PortIf.presenceFalls, h]

theorem presenceFalls_of_other {pi : PortIf} (h : pi.session ≠ .unattached) (h' : pi.session ≠ .attached) :
    pi.presenceFalls = { pi with presence := false } := by
  unfold PortIf.presenceFalls
  split
  · rfl
  · exact absurd ‹_› h
  · exact absurd ‹_› h'
  · rfl

theorem presenceRises_eq (pi : PortIf) :
    pi.presenceRises =
      { pi with presence := true, session := if pi.session = .offline then .unattached else pi.session } := by
  unfold PortIf.presenceRises
  split <;> rename_i hsession <;> simp [hsession]

end

/-- Settles O14: each request chooses its row's branch. -/
theorem portInterfaceCompletesItsOwnCommands : Obligations.PortInterfaceCompletesItsOwnCommands := by
  intro s p c hstands
  refine ⟨exec_nop hstands, fun ⟨code, hreq⟩ => exec_badCommand hstands hreq, fun hreq => ?_⟩
  rw [exec_rtm hstands hreq, resultWords_eq, timeLow_eq_setWidth, timeHigh_eq_setWidth]
  rfl

/-- Settles O15: the first taking of an ATT attaches, and the ATT still stands in the slot at a second one, in ATTACHED or in the
teardown that awaits it. -/
theorem attachAndDetachMoveTheSession : Obligations.AttachAndDetachMoveTheSession := by
  refine ⟨fun s p c hstands hreq => ⟨fun hsession => ?_, fun hsession => ?_⟩,
    fun s p c hstands hreq => ⟨fun hsession => ?_, fun hsession => ?_⟩⟩
  · have hself : (s.attach p).port p = { s.port p with session := .attached } := by rw [port_attach, if_pos rfl]
    have hstands' : (s.attach p).standsAt p c .atPort := ⟨by rw [hself]; exact hstands.slot, hstands.stage⟩
    have hattached : ((s.attach p).port p).session = .attached := by rw [hself]
    have hpending : ((s.attach p).port p).slot ≠ none := by rw [hstands'.slot]; exact nofun
    refine ⟨s.attach p, ?_, hself, fun q hne => by rw [port_attach, if_neg hne], attach_frame s p, ?_,
      _, exec_presenceDeasserted_of_attached hattached, ?_⟩
    · rw [exec_att hstands hreq, if_pos hsession]
    · rw [exec_att hstands' hreq, if_neg (hattached ▸ nofun)]
      rfl
    · generalize hu : ((s.attach p).updatePort p PortIf.presenceFalls).arbitrate = u
      have hfallen : u.port p = { (s.attach p).port p with presence := false, session := .teardown .await } := by
        rw [← hu, port_arbitrate, State.port_updatePort, if_pos rfl, presenceFalls_of_attached hattached, if_neg hpending]
      have hslot : (u.port p).slot = some c := by rw [hfallen]; exact hstands'.slot
      refine ⟨by rw [hfallen], hslot, ?_⟩
      rw [exec_att ⟨hslot, hstands.stage⟩ hreq, if_neg (by rw [hfallen]; exact nofun)]
      rfl
  · rw [exec_att hstands hreq, if_neg hsession]
    rfl
  · rw [exec_det hstands hreq, if_pos hsession]
  · rw [exec_det hstands hreq, if_neg hsession]
    rfl

/-- Settles O16: the two changes of the presence input, session by session. -/
theorem presenceMovesTheSession : Obligations.PresenceMovesTheSession := by
  intro s p
  refine ⟨?_, fun hsession => ?_, fun hsession => ?_, fun hnot hnot' => ?_⟩
  · rw [exec, execPresenceAsserted, State.updatePort, presenceRises_eq]
  · rw [exec_presenceDeasserted_of_not_attached (hsession ▸ nofun), State.updatePort, presenceFalls_of_unattached hsession]
    rfl
  · rw [exec_presenceDeasserted_of_attached hsession, State.updatePort, presenceFalls_of_attached hsession]
  · rw [exec_presenceDeasserted_of_not_attached hnot', State.updatePort, presenceFalls_of_other hnot hnot']

/-! ### The end of a teardown -/

section
variable {pi : PortIf}

/-- A teardown that ends with presence asserted and no command in the slot (R154). -/
theorem endTeardown_of_ready (hpresence : pi.presence = true) (hslot : pi.slot = none) :
    pi.endTeardown = { pi with
      session := .unattached, latch := 0, mask := 0, fault := FaultRecord.empty, overflowRaised := false } := by
  simp [PortIf.endTeardown, hpresence, hslot]

/-- A DET still pending completes behind the clearing, so that DONE stands alone in the latch (R152, R154). -/
theorem endTeardown_of_pending (hpresence : pi.presence = true) (hslot : pi.slot ≠ none) :
    pi.endTeardown = { pi with
      session := .unattached, latch := bitDone, mask := 0, fault := FaultRecord.empty, overflowRaised := false,
      slot := none, status := .ok, results := noResults } := by
  simp [PortIf.endTeardown, PortIf.complete, PortIf.setLatch, hpresence, Option.isSome_iff_ne_none.mpr hslot]

theorem endTeardown_of_absent (hpresence : pi.presence = false) : pi.endTeardown = pi.goOffline := by
  simp [PortIf.endTeardown, hpresence]

end

/-- Settles O20: the notices reach the other ports, and the port itself ends its teardown by presence and slot. -/
theorem departureEndsTheTeardown : Obligations.DepartureEndsTheTeardown := by
  intro s p hsession
  have hself : (((s.toNotify (.port (.detached p s.timeBase))).handPeerNotice p).updatePort p PortIf.endTeardown).port p =
      (s.port p).endTeardown := by
    rw [State.port_updatePort, if_pos rfl, port_handPeerNotice, if_pos rfl, State.toNotify_port]
  refine ⟨_, if_pos hsession, fun hpresence hslot => ?_, fun hpresence hslot => ?_, fun hpresence => ?_, fun q hne => ?_, rfl⟩
  · exact hself.trans (endTeardown_of_ready hpresence hslot)
  · exact hself.trans (endTeardown_of_pending hpresence hslot)
  · exact hself.trans (endTeardown_of_absent hpresence)
  · rw [State.port_updatePort, if_neg hne.symm, port_handPeerNotice, if_neg hne, State.toNotify_port]

end Sys2Proof.Machine
end

section
/-! PROOF. SC's arbiter: every step keeps it busy while somebody waits (O60). What passes it, whom it grants the store, and
that each end of a store event brings a waiting port nearer to its turn (O6). -/

namespace Sys2Proof.Machine

section
variable {s t u : State} {p q : Port} {c : Pending}

/-! ### The arbiter's agreement -/

theorem waitsForStore_afterReset (presence : Bool) : (PortIf.afterReset presence).waitsForStore = false := by
  cases presence <;> rfl

/-- Each course keeps the arbiter busy while somebody waits. -/
theorem ArbiterCourse.arbiterOk (hcourse : ArbiterCourse s t) (h : s.ArbiterOk) : t.ArbiterOk := by
  cases hcourse with
  | rests same =>
    obtain ⟨hgranted, hlast, htick⟩ := (arbiter_eq_iff s t).mp same.arbiter
    refine ⟨fun hidle => ?_, fun hgrant => ?_, fun p hgrant => ?_⟩
    · obtain ⟨hnotick, hnoport⟩ := h.idle (hgranted ▸ hidle)
      exact ⟨htick.trans hnotick, fun q => (same.waits q).trans (hnoport q)⟩
    · exact htick.trans (h.tick (hgranted ▸ hgrant))
    · obtain ⟨hwaits, hp⟩ := h.port p (hgranted ▸ hgrant)
      exact ⟨(same.waits p).trans hwaits, hlast.trans hp⟩
  | looks more =>
    refine arbiterOk_arbitrate (fun hgrant => more.tick (h.tick (more.granted ▸ hgrant))) fun p hgrant => ?_
    obtain ⟨hwaits, hlast⟩ := h.port p (more.granted ▸ hgrant)
    exact ⟨more.waits p hwaits, more.lastGranted.trans hlast⟩
  | frees free =>
    exact arbiterOk_arbitrate (fun hgrant => nomatch free.symm.trans hgrant) fun p hgrant => nomatch free.symm.trans hgrant
  | resets =>
    refine ⟨fun _ => ⟨rfl, fun q => ?_⟩, nofun, nofun⟩
    rw [port_resetWith, Fin.getElem_fin, Vector.getElem_map]
    exact waitsForStore_afterReset _

/-- Settles O60: every row and the microsecond take a course, and every course keeps the arbiter's agreement. -/
theorem everyStepKeepsTheArbiter : Obligations.EveryStepKeepsTheArbiter := by
  intro s t hports h hstep
  unfold step at hstep
  split at hstep
  · obtain rfl := Host.Outcome.next.inj hstep
    exact (arbiterCourse_microsecond s).arbiterOk h
  · rename_i c rest _
    have hsame : SameRequests s { s with pending := rest } := ⟨rfl, fun _ => rfl⟩
    have hports' : State.PortsOk { s with pending := rest } := hports.congr rfl
    exact (exec_arbiterCourse hports' hstep).arbiterOk ((ArbiterCourse.rests hsame).arbiterOk h)

/-! ### What does not pass the arbiter -/

/-- A row of a port to which the store is not granted changes nothing (R160). -/
theorem exec_storeRow_of_not_granted {i : Instr} (h : s.granted ≠ some (.port p)) (hi : i ∈ .teardownSc p :: storeRows p) :
    exec i s = .next s := by
  have hnone := storeCommand_eq_none s p h
  simp only [storeRows, List.mem_cons, List.not_mem_nil, or_false] at hi
  rcases hi with rfl | rfl | rfl | rfl | rfl | rfl | rfl | rfl | rfl | rfl | rfl | rfl
  · exact if_neg fun hturn => h hturn.1
  all_goals
    simp only [exec, execOrd, execRef, execOwr, execPub, execCls, execIns, execPst, execDefine, execWdr, execSfr, execSpt, hnone]

theorem exec_tickRow_of_not_granted {i : Instr} (h : s.granted ≠ some .tick) (hi : i ∈ [.tick, .staleTransition, .emptyExpiry]) :
    exec i s = .next s := by
  simp only [List.mem_cons, List.not_mem_nil, or_false] at hi
  rcases hi with rfl | rfl | rfl
  · exact exec_tick_of_not_granted h
  · exact if_neg (not_tickGranted_and_expires (.inl h))
  · exact if_neg (not_tickGranted_and_expires (.inl h))

/-! ### Whom the arbiter grants the store -/

theorem arbitrate_of_held (h : s.granted ≠ none) : s.arbitrate = s := if_pos h

theorem arbitrate_of_tick (hidle : s.granted = none) (htick : s.tickWaiting = true) :
    s.arbitrate = { s with granted := some .tick } := by
  rw [State.arbitrate, if_neg (not_not.mpr hidle), if_pos htick]

theorem arbitrate_of_port (hidle : s.granted = none) (htick : s.tickWaiting = false) (hnext : s.nextInRotation = some p) :
    s.arbitrate = { s with granted := some (.port p), lastGranted := p } := by
  rw [State.arbitrate, if_neg (not_not.mpr hidle), if_neg (Bool.eq_false_iff.mp htick), hnext]

theorem arbitrate_of_nobody (hidle : s.granted = none) (htick : s.tickWaiting = false)
    (hnobody : ∀ q, (s.port q).waitsForStore = false) : s.arbitrate = s := by
  rw [State.arbitrate, if_neg (not_not.mpr hidle), if_neg (Bool.eq_false_iff.mp htick), nextInRotation_eq_none.mpr hnobody]

/-- The one port that waits is the next in rotation. -/
theorem nextInRotation_of_alone (hwaits : (s.port p).waitsForStore = true)
    (hothers : ∀ q, q ≠ p → (s.port q).waitsForStore = false) : s.nextInRotation = some p := by
  refine nextInRotation_eq_some.mpr ⟨hwaits, fun q hq => ?_⟩
  by_cases hqp : q = p
  · rw [hqp]
  · rw [hothers q hqp] at hq
    cases hq

/-- The port served next leaves every other one that waits nearer to its turn: its place counts from the one served. -/
theorem place_after_grant : ∀ k r p : Port, (r - k - 1).val ≤ (p - k - 1).val → r ≠ p → (p - r - 1).val < (p - k - 1).val := by
  decide

/-- Where no tick waits, a free store is granted to a waiting port or brings that port nearer to its turn (R160). -/
theorem served_or_nearer (hfree : u.granted = none) (htick : u.tickWaiting = false) (hlast : u.lastGranted = s.lastGranted)
    (hwaits : (u.port p).waitsForStore = true) :
    ∃ r, u.arbitrate.granted = some (.port r) ∧ u.arbitrate.lastGranted = r ∧
      (r = p ∨ (u.arbitrate.port p).waitsForStore = true ∧ u.arbitrate.rotationPlace p < s.rotationPlace p) := by
  cases hnext : u.nextInRotation with
  | none => exact absurd hwaits (by simp [nextInRotation_eq_none.mp hnext p])
  | some r =>
    have hgrant := arbitrate_of_port hfree htick hnext
    refine ⟨r, by rw [hgrant], by rw [hgrant], or_iff_not_imp_left.mpr fun hne => ⟨by rwa [port_arbitrate], ?_⟩⟩
    have hle := (nextInRotation_least hnext).2 p hwaits
    have hplace : u.rotationPlace = s.rotationPlace := by
      unfold State.rotationPlace
      rw [hlast]
    rw [hplace] at hle
    rw [hgrant]
    exact place_after_grant s.lastGranted r p hle hne

/-! ### The end of a port's store event -/

/-- From `s` to `u` the store event of port `q` has run to its end; the arbiter has not yet looked at its requests. -/
structure EventEnded (s : State) (q : Port) (u : State) : Prop where
  free : u.granted = none
  lastGranted : u.lastGranted = s.lastGranted
  tick : u.tickWaiting = s.tickWaiting
  waits : ∀ p, p ≠ q → (u.port p).waitsForStore = (s.port p).waitsForStore

theorem arbiter_publishMember (s : State) (p : Port) (retain : Bool) (a : ApIdx) :
    (s.publishMember p retain a).arbiter = s.arbiter := by
  unfold State.publishMember
  split
  · rw [arbiter_of_besidesPool (besidesPool_endMember ..), makeCurrent_eq, leaveCurrent_frame]
    rfl
  · rfl

/-- SC's work on a command leaves the arbiter alone. -/
theorem StoreAnswer.arbiter {i : Instr} {r : Answered} (hr : StoreAnswer s p i r) : r.1.arbiter = s.arbiter := by
  cases hr with
  | ord mask locals ans =>
    unfold State.openRead
    split
    · rfl
    · exact arbiter_of_besidesPool (foldl_keeps s State.besidesPool _ (by simp) _)
  | ref mask =>
    unfold State.refresh
    split
    · rfl
    · exact arbiter_of_besidesPool (foldl_keeps s State.besidesPool _ (by simp) _)
  | owr l a zero ans =>
    unfold State.openWrite
    split
    · rfl
    · rfl
    · dsimp only
      split
      · rfl
      · rename_i hu
        obtain ⟨rest, -, rfl⟩ := (allocate_eq_some _ _ _ _ _ _).mp hu
        rfl
  | pub mask conditional retain ans =>
    unfold State.publish
    split
    · rfl
    · split
      · rfl
      · exact foldl_keeps s State.arbiter _ (fun u a => arbiter_publishMember u p retain a) _
  | cls mask => exact arbiter_of_besidesPool (besidesPool_closeAll s p _)
  | ins ans =>
    unfold State.inspect
    split
    · rfl
    · split <;> rfl
  | pst => rfl
  | define gid length producer period grace =>
    unfold State.defineEntry
    split
    · dsimp only; split <;> rfl
    · rfl
  | wdr gid =>
    cases he : entryOf gid with
    | none => simp only [State.withdrawEntry, he]; rfl
    | some e =>
      by_cases hdef : (s.entry e).state = .undefined
      · simp only [State.withdrawEntry, he, if_pos hdef]; rfl
      · rw [withdrawEntry_eq he hdef, withdrawn_frame]; rfl
  | sfr gid period grace =>
    unfold State.setFreshness
    split
    · rfl
    · dsimp only; split <;> rfl
  | spt threshold =>
    unfold State.setThreshold
    split <;> rfl

/-- A change of port `q` at the end of its store event. -/
theorem SameRequests.eventEnded (h : SameRequests s t) (f : PortIf → PortIf) :
    EventEnded s q ((s.endStoreEvent t).updatePort q f) := by
  obtain ⟨-, hlast, htick⟩ := (arbiter_eq_iff s t).mp h.arbiter
  refine ⟨free_endStoreEvent s t, ?_, ?_, fun p hne => ?_⟩
  · rw [endStoreEvent_frame]; exact hlast
  · rw [endStoreEvent_frame]; exact htick
  · rw [State.port_updatePort, if_neg hne.symm, (posted_endStoreEvent s t).waitsForStore, h.waits]

/-- A command of port `q` whose turn has come is answered by SC. -/
theorem exec_storeRow (h : s.storeTurn q c) (hrow : Request.row q c.req ∈ storeRows q) :
    ∃ r, StoreAnswer s q (Request.row q c.req) r ∧ exec (Request.row q c.req) s = .next (s.finishStore q r) := by
  cases hreq : c.req with
  | ord mask locals => exact ⟨_, .ord mask locals _, exec_ord h hreq⟩
  | ref mask => exact ⟨_, .ref mask, exec_ref h hreq⟩
  | owr l a zero => exact ⟨_, .owr l a zero _, exec_owr h hreq⟩
  | pub mask conditional retain => exact ⟨_, .pub mask conditional retain _, exec_pub h hreq⟩
  | cls mask => exact ⟨_, .cls mask, exec_cls h hreq⟩
  | ins l => exact ⟨_, .ins _, exec_ins h hreq⟩
  | pst => exact ⟨_, .pst, exec_pst h hreq⟩
  | define gid length producer period grace => exact ⟨_, .define gid length producer period grace, exec_define h hreq⟩
  | wdr gid => exact ⟨_, .wdr gid, exec_wdr h hreq⟩
  | sfr gid period grace => exact ⟨_, .sfr gid period grace, exec_sfr h hreq⟩
  | spt threshold => exact ⟨_, .spt threshold, exec_spt h hreq⟩
  | _ => simp [hreq, Request.row, storeRows] at hrow

/-- A command or a teardown request of port `q` taken by SC ends its store event, and the arbiter looks at its requests. -/
theorem exec_storeEvent {i : Instr} (hgranted : s.granted = some (.port q))
    (h : (∃ c, s.storeTurn q c ∧ i = Request.row q c.req ∧ i ∈ storeRows q) ∨
      i = .teardownSc q ∧ (s.port q).session = .teardown .store) :
    ∃ u, exec i s = .next u.arbitrate ∧ EventEnded s q u := by
  rcases h with ⟨c, hturn, rfl, hrow⟩ | ⟨rfl, hsession⟩
  · obtain ⟨r, hr, hexec⟩ := exec_storeRow hturn hrow
    exact ⟨_, hexec, (hr.posted.sameRequests hr.arbiter).eventEnded _⟩
  · have hpool := besidesPool_closeAll s q (List.finRange 8)
    exact ⟨_, if_pos ⟨hgranted, hsession⟩,
      ((Posted.of_besidesPool hpool).sameRequests (arbiter_of_besidesPool hpool)).eventEnded _⟩

/-! ### Arrivals at an idle arbiter -/

/-- A command that goes straight to SC and finds the store idle and nobody waiting is granted at its arrival (R160). -/
theorem granted_of_arrival (hidle : s.granted = none) (htick : s.tickWaiting = false)
    (hnobody : ∀ q, (s.port q).waitsForStore = false) {pi : PortIf} {req : Request} (hstage : req.firstStage = .store) :
    (s.slotTaken p pi req).arbitrate.granted = some (.port p) ∧ (s.slotTaken p pi req).arbitrate.lastGranted = p := by
  have hport := port_slotTaken s p pi req
  have hwaits : ((s.slotTaken p pi req).port p).waitsForStore = true :=
    (waitsForStore_iff _).mpr (.inr ⟨_, by rw [hport, if_pos rfl], hstage⟩)
  have hothers : ∀ q, q ≠ p → ((s.slotTaken p pi req).port q).waitsForStore = false := fun q hne => by
    rw [hport, if_neg hne.symm, hnobody]
  have hgrant := arbitrate_of_port (s := s.slotTaken p pi req) hidle htick (nextInRotation_of_alone hwaits hothers)
  exact ⟨congrArg State.granted hgrant, congrArg State.lastGranted hgrant⟩

/-- A tick request that finds the store idle is granted at its arrival (R94, R160). -/
theorem granted_atExpiry (hidle : s.granted = none) (now : Time) : (s.atExpiry now).granted = some .tick := by
  rw [State.atExpiry, arbitrate_of_tick]
  · exact hidle
  · rfl

end

/-- Settles O6: the grant by `nextInRotation_eq_some`, and each end of a store event by `served_or_nearer`. -/
theorem arbiterServesTicksFirstAndPortsInRotation : Obligations.ArbiterServesTicksFirstAndPortsInRotation := by
  refine ⟨fun s i => ⟨fun p => exec_storeRow_of_not_granted, exec_tickRow_of_not_granted⟩,
    fun s => ⟨arbitrate_of_held, arbitrate_of_tick, fun hidle htick =>
      ⟨fun p hwaits hleast => ?_, arbitrate_of_nobody hidle htick⟩⟩,
    fun s hidle htick hnobody => ⟨fun p v req hready hsession hreq hclaim hpath => ?_, _, exec_millisecondExpiry s, ?_⟩,
    fun s t q i hgranted hlast hevent hexec => ?_, fun s t hgranted hexec p hwaits => ?_⟩
  · exact arbitrate_of_port hidle htick (nextInRotation_eq_some.mpr ⟨hwaits, hleast⟩)
  · have hstage : req.firstStage = .store := by
      cases req with
      | ref | cls | pst | define | wdr | sfr | spt => rfl
      | _ => exact hpath.elim
    refine ⟨_, ?_, granted_of_arrival (pi := { s.port p with cmdWord := v }) hidle htick hnobody hstage⟩
    rw [exec_commandArrival, writeCommand_of_ready hready (hsession ▸ nofun), hreq]
    exact congrArg _ (arrive_attached hsession hclaim)
  · exact granted_atExpiry hidle _
  · obtain ⟨u, hu, hended⟩ := exec_storeEvent hgranted hevent
    obtain rfl := Host.Outcome.next.inj (hexec.symm.trans hu)
    refine ⟨fun htick => ?_, fun htick p hne hwaits => ?_⟩
    · rw [arbitrate_of_tick hended.free (hended.tick.trans htick)]
      exact ⟨rfl, hended.lastGranted.trans hlast⟩
    · exact served_or_nearer hended.free (hended.tick.trans htick) hended.lastGranted ((hended.waits p hne).trans hwaits)
  · have htaken : t = s.takeTick := Host.Outcome.next.inj (hexec.symm.trans (exec_tick hgranted))
    have hports : s.tickTaken.ports = s.ports := by rw [tickTaken_frame]
    have hport : s.tickTaken.port p = s.port p := congrArg (fun ports : Vector PortIf 4 => ports[p]) hports
    have hfree : s.tickTaken.granted = none := by rw [tickTaken_frame]
    have htick : s.tickTaken.tickWaiting = false := by rw [tickTaken_frame]
    have hlast : s.tickTaken.lastGranted = s.lastGranted := by rw [tickTaken_frame]
    rw [htaken, takeTick_eq]
    exact served_or_nearer hfree htick hlast ((congrArg PortIf.waitsForStore hport).trans hwaits)

end Sys2Proof.Machine
end

section
/-! PROOF. The window map and what a write of each of its words does (O22); the command block read back as the request it was
written from (O24), and the bits of it that do not reach a request (O25). -/

namespace Sys2Proof

/-! ### Fields of words put together from their parts

The library's lemmas on a field of `x ++ y`, with `no_index`: a word's width is written 32 and not as the sum of its parts'
widths, and `simp` finds them there only so. -/

section
variable {m n : Nat} (x : BitVec m) (y : BitVec n) {lo len : Nat}

@[simp] theorem field_append_low (h : lo + len ≤ n) : (no_index (x ++ y)).extractLsb' lo len = y.extractLsb' lo len :=
  BitVec.extractLsb'_append_eq_of_add_le h

@[simp] theorem field_append_high (h : n ≤ lo) : (no_index (x ++ y)).extractLsb' lo len = x.extractLsb' (lo - n) len :=
  BitVec.extractLsb'_append_eq_of_le h

theorem getLsbD_append_parts (i : Nat) : (no_index (x ++ y)).getLsbD i = if i < n then y.getLsbD i else x.getLsbD (i - n) :=
  BitVec.getLsbD_append

end

/-! ### The command word (Tables 10-2 and 10-3) -/

theorem Cmd.ofCode_code (c : Cmd) : Cmd.ofCode c.code = some c := by cases c <;> rfl

section
variable (code mask : Byte) (conditional retain wait : Bool)

@[simp] theorem code_commandWord : Word.code (commandWord code mask conditional retain wait) = code := by
  simp [Word.code, Word.field, commandWord]

@[simp] theorem mask_commandWord : Word.mask (commandWord code mask conditional retain wait) = mask := by
  simp [Word.mask, Word.field, commandWord]

theorem flags_commandWord :
    (commandWord code mask conditional retain wait).getLsbD 16 = conditional ∧
      (commandWord code mask conditional retain wait).getLsbD 17 = retain ∧
      (commandWord code mask conditional retain wait).getLsbD 18 = wait := by
  simp [commandWord, getLsbD_append_parts, -BitVec.getLsbD_eq_getElem]

end

/-- The command word of a request names the request's command, and an unknown code names none (R159). -/
theorem ofCode_commandWord {r : Request} (h : r.wellFormed = true) : Cmd.ofCode (Word.code r.commandWord) = r.cmd := by
  cases r with
  | bad code =>
    rw [Request.commandWord, code_commandWord]
    exact Option.isNone_iff_eq_none.mp h
  | _ => simp [Request.commandWord, Request.cmd, Cmd.ofCode_code]

/-! ### The parameter words (Table 10-4) -/

@[simp] theorem localLow_localPair (low high : LocalNo) : Word.localLow (localPair low high) = low := by
  simp [Word.localLow, Word.field, localPair]

@[simp] theorem localHigh_localPair (low high : LocalNo) : Word.localHigh (localPair low high) = high := by
  simp [Word.localHigh, Word.field, localPair]

theorem ordLocals_params (mask : Byte) (l : Vector LocalNo 8) : ordLocals (Request.ord mask l).params = l := by
  ext i hi
  simp only [ordLocals, Request.params]
  interval_cases i <;> simp

/-- Settles O24: the command word names the command, and each field of that command reads back. -/
theorem requestWordsDecodeToTheirRequest : Obligations.RequestWordsDecodeToTheirRequest := by
  intro r h
  rw [decodeRequest, ofCode_commandWord h]
  cases r with
  | bad code => exact congrArg Request.bad (code_commandWord ..)
  | nop | att | det | rtm | pst | mrk | rel => rfl
  | ord mask l => exact congrArg₂ Request.ord (mask_commandWord ..) (ordLocals_params mask l)
  | ref mask => exact congrArg Request.ref (mask_commandWord ..)
  | cls mask => exact congrArg Request.cls (mask_commandWord ..)
  | pub mask conditional retain =>
    obtain ⟨hconditional, hretain, -⟩ := flags_commandWord Cmd.pub.code mask conditional retain false
    simp only [Request.cmd, Request.commandWord, mask_commandWord, hconditional, hretain]
  | cla wait =>
    obtain ⟨-, -, hwait⟩ := flags_commandWord Cmd.cla.code 0 false false wait
    exact congrArg Request.cla hwait
  | owr l a zero | sub l kinds coalesce | sgr target index count localBase globalBase rights =>
    simp [Request.cmd, Request.params, Word.field, Word.localLow, subKinds, getLsbD_append_parts, -BitVec.getLsbD_eq_getElem]
  | ins | define | wdr | sfr | spt | rgr => simp [Request.cmd, Request.params, Word.field, Word.localLow]

/-! ### Words that agree under a mask -/

section
variable {w w' m : Word}

/-- A field whose positions the mask holds whole is the same in both words. -/
theorem field_eq_of_and_eq {lo n : Nat} (h : w &&& m = w' &&& m) (hm : m.extractLsb' lo n = BitVec.allOnes n) :
    Word.field w lo n = Word.field w' lo n := by
  have hfield := congrArg (BitVec.extractLsb' lo n) h
  rwa [BitVec.extractLsb'_and, BitVec.extractLsb'_and, hm, BitVec.and_allOnes, BitVec.and_allOnes] at hfield

theorem getLsbD_eq_of_and_eq {i : Nat} (h : w &&& m = w' &&& m) (hm : m.getLsbD i = true) : w.getLsbD i = w'.getLsbD i := by
  have hbit := congrArg (BitVec.getLsbD · i) h
  simpa only [BitVec.getLsbD_and, hm, Bool.and_true] using hbit

theorem subKinds_eq_of_and_eq (h : w &&& 0x010F0FFF = w' &&& 0x010F0FFF) : subKinds w = subKinds w' := by
  simp only [subKinds, Kinds.mk.injEq]
  exact ⟨getLsbD_eq_of_and_eq h rfl, getLsbD_eq_of_and_eq h rfl, getLsbD_eq_of_and_eq h rfl, getLsbD_eq_of_and_eq h rfl⟩

theorem ordLocals_eq_of_and_eq {ps ps' : Params} (h : ∀ i : Fin 4, ps[i] &&& 0x0FFF0FFF = ps'[i] &&& 0x0FFF0FFF) :
    ordLocals ps = ordLocals ps' := by
  have hlow : ∀ (i : Nat) (hi : i < 4), Word.localLow ps[i] = Word.localLow ps'[i] := fun i hi =>
    field_eq_of_and_eq (h ⟨i, hi⟩) rfl
  have hhigh : ∀ (i : Nat) (hi : i < 4), Word.localHigh ps[i] = Word.localHigh ps'[i] := fun i hi =>
    field_eq_of_and_eq (h ⟨i, hi⟩) rfl
  simp only [ordLocals, hlow, hhigh]

end

/-- Settles O25: each field of the command lies within the positions on which the blocks agree. -/
theorem unusedBitsDoNotReachTheRequest : Obligations.UnusedBitsDoNotReachTheRequest := by
  intro v v' ps ps' hcode hagree
  unfold decodeRequest
  rw [← hcode]
  cases hcmd : Cmd.ofCode (Word.code v) with
  | none => rfl
  | some c =>
    rw [hcmd] at hagree
    cases c with
    | nop | att | det | rtm | pst | mrk | rel => rfl
    | ord => exact congrArg₂ Request.ord (field_eq_of_and_eq hagree.1 rfl) (ordLocals_eq_of_and_eq hagree.2)
    | ref => exact congrArg Request.ref (field_eq_of_and_eq hagree rfl)
    | cls => exact congrArg Request.cls (field_eq_of_and_eq hagree rfl)
    | pub =>
      simp only [Request.pub.injEq]
      exact ⟨field_eq_of_and_eq hagree rfl, getLsbD_eq_of_and_eq hagree rfl, getLsbD_eq_of_and_eq hagree rfl⟩
    | cla => exact congrArg Request.cla (getLsbD_eq_of_and_eq hagree rfl)
    | owr =>
      simp only [Request.owr.injEq]
      exact ⟨field_eq_of_and_eq hagree rfl, congrArg BitVec.toFin (field_eq_of_and_eq hagree rfl),
        getLsbD_eq_of_and_eq hagree rfl⟩
    | ins => exact congrArg Request.ins (field_eq_of_and_eq hagree rfl)
    | sub =>
      simp only [Request.sub.injEq]
      exact ⟨field_eq_of_and_eq hagree rfl, subKinds_eq_of_and_eq hagree, getLsbD_eq_of_and_eq hagree rfl⟩
    | define => simp only [hagree]
    | wdr => exact congrArg Request.wdr (field_eq_of_and_eq hagree rfl)
    | sfr =>
      obtain ⟨hfirst, hsecond⟩ := hagree
      rw [hsecond, field_eq_of_and_eq (lo := 0) (n := 16) hfirst rfl]
    | spt => exact congrArg Request.spt (field_eq_of_and_eq hagree rfl)
    | sgr =>
      obtain ⟨hfirst, hsecond, hrights⟩ := hagree
      rw [hfirst, hsecond, getLsbD_eq_of_and_eq (i := 0) hrights rfl, getLsbD_eq_of_and_eq (i := 1) hrights rfl]
    | rgr => exact congrArg₂ Request.rgr (field_eq_of_and_eq hagree rfl) (field_eq_of_and_eq hagree rfl)

end Sys2Proof

namespace Sys2Proof.Machine

/-! ### The window map (Table 10-1) -/

/-- Every offset outside the gaps is that of a word: the rows of Table 10-1 in their order. -/
theorem exists_offset_or_unused (o : Offset) : (∃ x : WindowWord, x.offset = some o) ∨ windowWord o = .unused := by
  have hat : ∀ {k : Nat}, k = o.toNat → some (BitVec.ofNat 10 k) = some o := fun hk => by
    rw [hk, BitVec.ofNat_toNat, BitVec.setWidth_eq]
  refine or_iff_not_imp_right.mpr fun hnamed => ?_
  have hgaps := mt windowWord_eq_unused hnamed
  generalize o.toNat = n at hat hgaps
  obtain h | h | h | h | h | h | h | h | h | h | h | h | h : n = 0x000 ∨ 0x001 ≤ n ∧ n ≤ 0x004 ∨ n = 0x005 ∨
      0x006 ≤ n ∧ n ≤ 0x00F ∨ n = 0x010 ∨ n = 0x011 ∨ n = 0x012 ∨ n = 0x013 ∨ n = 0x014 ∨ 0x020 ≤ n ∧ n ≤ 0x025 ∨
      n = 0x026 ∨ 0x040 ≤ n ∧ n ≤ 0x05F ∨ 0x080 ≤ n ∧ n ≤ 0x0FF := by omega
  · exact ⟨.command, hat h.symm⟩
  · exact ⟨.param ⟨n - 0x001, by omega⟩, hat (by dsimp only; omega)⟩
  · exact ⟨.status, hat h.symm⟩
  · exact ⟨.result ⟨n - 0x006, by omega⟩, hat (by dsimp only; omega)⟩
  · exact ⟨.latch, hat h.symm⟩
  · exact ⟨.mask, hat h.symm⟩
  · exact ⟨.force, hat h.symm⟩
  · exact ⟨.session, hat h.symm⟩
  · exact ⟨.faultRecord, hat h.symm⟩
  · exact ⟨.head ⟨n - 0x020, by omega⟩, hat (by dsimp only; omega)⟩
  · exact ⟨.take, hat h.symm⟩
  · exact ⟨.apStatus ⟨(n - 0x040) / 4, by omega⟩ ⟨(n - 0x040) % 4, by omega⟩, hat (by dsimp only; omega)⟩
  · exact ⟨.apData ⟨(n - 0x080) / 16, by omega⟩ ⟨(n - 0x080) % 16, by omega⟩, hat (by dsimp only; omega)⟩

/-- A word has at most one offset, and the map names it there and nowhere else. -/
theorem offset_eq_some_iff (x : WindowWord) (o : Offset) : x.offset = some o ↔ windowWord o = x ∧ x ≠ .unused := by
  refine ⟨fun h => ⟨windowWord_of_offset h, by rintro rfl; cases h⟩, fun ⟨hword, hnamed⟩ => ?_⟩
  obtain ⟨y, hy⟩ | hunused := exists_offset_or_unused o
  · rwa [← hword, windowWord_of_offset hy]
  · exact absurd (hword.symm.trans hunused) hnamed

/-! ### A write at an offset -/

/-- WINDOW_WRITE is the write of the word that the map names. -/
theorem exec_windowWrite {s : State} {p : Port} {o : Offset} {v : Word} {x : WindowWord} (h : windowWord o = x) :
    exec (.windowWrite p o v) s = .next (s.writeWindowWord p x v) :=
  congrArg (fun y => Host.Outcome.next (s.writeWindowWord p y v)) h

/-- Settles O22: the map by `offset_eq_some_iff`; a word with a row of its own has that row's write as `writeWindowWord`'s. -/
theorem windowWritesFollowTheMap : Obligations.WindowWritesFollowTheMap := by
  refine ⟨offset_eq_some_iff, fun s p o v => ⟨fun i hparam hon => ?_, fun hdisregarded => ?_, exec_windowWrite,
    exec_windowWrite, exec_windowWrite, exec_windowWrite, exec_windowWrite, fun a w => exec_windowWrite⟩⟩
  · exact (exec_windowWrite hparam).trans (congrArg _ (writePort_of_on hon _))
  · obtain h | ⟨i, h⟩ | h | h | ⟨i, h⟩ | ⟨a, i, h⟩ | h := hdisregarded
    all_goals exact exec_windowWrite h

end Sys2Proof.Machine
end

section
/-! PROOF. A step takes the command at the front of the queue (O1). With `step_of_pending_nil` this says what `step` does on
every queue. -/

namespace Sys2Proof.Machine

/-- Settles O1: on a queue with a front command `step` takes its second branch, whatever the command is. -/
theorem stepRunsFrontCommand : Obligations.StepRunsFrontCommand := by
  intro c rest s hqueue
  unfold step
  rw [hqueue]

end Sys2Proof.Machine
end
